-- ==== Sys2Proof/Word.lean ====
section
/-! DEFINITION. The word types of the PyUruNet CORE: bytes, 32-bit words (registers and digest words, spec
R8 REG_W and WORD) and 64-bit host memory addresses and lengths (R8 ADDR_W and LEN_W). All values are
unsigned (R11). -/

namespace Sys2Proof

/-- One byte of a message, a key, an S-box or host memory. -/
abbrev Byte := BitVec 8

/-- A 32-bit value: a host-visible register (R31) or a digest word (R12). -/
abbrev Word := BitVec 32

/-- A 64-bit host memory address or byte length (R52, R35, R36). -/
abbrev Addr := BitVec 64

end Sys2Proof
end

