-- ==== Sys2Proof/Syntax.lean ====
section
/-! DEFINITION. The seven commands of the block (R4, R75, R76), one constructor per row of the opcode table. -/

namespace Sys2Proof

/-- The two units, each with a CMD register of its own; the unit that decodes a word is the one whose CMD
register was written (R71). -/
inductive Engine where
  | de
  | cu
  deriving DecidableEq, Repr

/-- A command. No command names a register operand (R18); the cipher commands name a context. -/
inductive Instr where
  /-- SHA0.DIGEST (R99). -/
  | sha0Digest
  /-- SHA1.DIGEST (R100). -/
  | sha1Digest
  /-- SHA0.HEX (R101). -/
  | sha0Hex
  /-- SHA1.HEX (R102). -/
  | sha1Hex
  /-- RC4.NEW on a context number (R120). -/
  | rc4New (ctx : Nat)
  /-- RC4.XFORM on a context number (R121). -/
  | rc4Xform (ctx : Nat)
  /-- RC4.FREE on a context number (R122). -/
  | rc4Free (ctx : Nat)
  deriving DecidableEq, Repr

/-- The unit whose CMD register takes the command (R72, R73). -/
def Instr.engine : Instr → Engine
  | .sha0Digest => .de
  | .sha1Digest => .de
  | .sha0Hex => .de
  | .sha1Hex => .de
  | .rc4New _ => .cu
  | .rc4Xform _ => .cu
  | .rc4Free _ => .cu

end Sys2Proof
end

