-- ==== Sys2Proof/WellFormed.lean ====
section
/-! DEFINITION. Which commands have a word: a context number fits the 8-bit CTX field (R73). A context
number of N_CTX or more is a legal encoding that fails at execution with CTX_RANGE (R77), so it is
well-formed. -/

namespace Sys2Proof

/-- The context number fits CTX, bits 15:8 of the cipher command word (R73). -/
def ctxFits (ctx : Nat) : Bool := decide (ctx < 256)

/-- A command that some word encodes. -/
def Instr.wellFormed : Instr → Bool
  | .sha0Digest => true
  | .sha1Digest => true
  | .sha0Hex => true
  | .sha1Hex => true
  | .rc4New ctx => ctxFits ctx
  | .rc4Xform ctx => ctxFits ctx
  | .rc4Free ctx => ctxFits ctx

end Sys2Proof
end

