-- ==== Sys2Proof/Decode.lean ====
section
/-! DEFINITION. Decoding of the 32-bit command words (R72, R73, R77), total on every word of both units and
rejecting by name, and the encoder written from the same tables (R75, R76). -/

namespace Sys2Proof

/-- Why a command word is illegal (R77). -/
inductive DecodeError where
  /-- `v[3:0]` is no OP of the digest unit. -/
  | digestOp
  /-- `v[31:6]` of a digest word is not 0. -/
  | digestReserved
  /-- `v[3:0]` is no OP of the cipher unit. -/
  | cipherOp
  /-- `v[7:4]` of a cipher word is not 0. -/
  | cipherReservedLow
  /-- `v[31:16]` of a cipher word is not 0. -/
  | cipherReservedHigh
  deriving DecidableEq, Repr

/-- `v[3:0]`, the OP field of both formats (R72, R73). -/
def opField (v : Word) : BitVec 4 := v.extractLsb' 0 4

/-- `v[15:8]`, the CTX field of a cipher word, zero-extended (R73, R74). -/
def ctxField (v : Word) : Nat := (v.extractLsb' 8 8).toNat

/-- A digest command word written to DE_CMD (R72, R75, R77). -/
def decodeDigest (v : Word) : Except DecodeError Instr :=
  if opField v ≠ 0b0001 then .error .digestOp
  else if v.extractLsb' 6 26 ≠ 0 then .error .digestReserved
  else match v.getLsbD 4, v.getLsbD 5 with
    | false, false => .ok .sha0Digest
    | true, false => .ok .sha1Digest
    | false, true => .ok .sha0Hex
    | true, true => .ok .sha1Hex

/-- A cipher command word written to CU_CMD (R73, R76, R77). -/
def decodeCipher (v : Word) : Except DecodeError Instr :=
  if opField v ≠ 0b0001 ∧ opField v ≠ 0b0010 ∧ opField v ≠ 0b0011 then .error .cipherOp
  else if v.extractLsb' 4 4 ≠ 0 then .error .cipherReservedLow
  else if v.extractLsb' 16 16 ≠ 0 then .error .cipherReservedHigh
  else if opField v = 0b0001 then .ok (.rc4New (ctxField v))
  else if opField v = 0b0010 then .ok (.rc4Xform (ctxField v))
  else .ok (.rc4Free (ctxField v))

/-- The decoder: the unit is the one whose CMD register was written (R71). -/
def decode (u : Engine) (v : Word) : Except DecodeError Instr :=
  match u with
  | .de => decodeDigest v
  | .cu => decodeCipher v

/-- A cipher command word from its fields: OP bits 3:0, CTX bits 15:8, every other bit 0 (R73). -/
def cipherWord (op : BitVec 4) (ctx : Nat) : Word := 0#16 ++ BitVec.ofNat 8 ctx ++ 0#4 ++ op

/-- A digest command word from its fields: OP = 1 bits 3:0, V bit 4, HEX bit 5, every other bit 0 (R72). -/
def digestWord (v hex : Bool) : Word := 0#26 ++ BitVec.ofBool hex ++ BitVec.ofBool v ++ 0b0001#4

/-- The word of a command (R75, R76). -/
def encode : Instr → Word
  | .sha0Digest => digestWord false false
  | .sha1Digest => digestWord true false
  | .sha0Hex => digestWord false true
  | .sha1Hex => digestWord true true
  | .rc4New ctx => cipherWord 0b0001 ctx
  | .rc4Xform ctx => cipherWord 0b0010 ctx
  | .rc4Free ctx => cipherWord 0b0011 ctx

/-- The low `nbits` bits of a table row's number as a command word, the bits above being 0. The block has one
instruction length, 32 bits (R71): a number that needs more is no command word. -/
def tableWord (nbits w : Nat) : Option Word :=
  if w % 2 ^ nbits < 2 ^ 32 then some (BitVec.ofNat 32 (w % 2 ^ nbits)) else none

/-- The unit a word of the opcode table is written to when only the word is known: DE if the word is a digest
command, else CU. One word, 0x00000001, is legal for both units (R75, R76: SHA0.DIGEST, and RC4.NEW with
CTX = 0); it goes to DE (DESIGN CHOICE, log entry 14). On the machine the register written decides. -/
def tableEngine (v : Word) : Engine :=
  match decodeDigest v, decodeCipher v with
  | .ok _, _ => .de
  | .error _, .ok _ => .cu
  | .error _, .error _ => .de

/-- The command the decoder reads from an opcode table word, none where it refuses. -/
def decodeTableWord (nbits w : Nat) : Option Instr :=
  match tableWord nbits w with
  | none => none
  | some v => (decode (tableEngine v) v).toOption

/-- Decoding the word of a digest command. -/
@[simp] theorem decodeDigest_digestWord (v hex : Bool) :
    decodeDigest (digestWord v hex) =
      match v, hex with
      | false, false => .ok .sha0Digest
      | true, false => .ok .sha1Digest
      | false, true => .ok .sha0Hex
      | true, true => .ok .sha1Hex := by
  cases v <;> cases hex <;> decide

end Sys2Proof
end

