-- ==== Sys2Proof/Config.lean ====
section
/-! DEFINITION. The implementation parameters the spec leaves OPEN (R8), and the free values: the "any value"
and "unspecified" items of spec/93 section 3, as constants with no body, so that nothing can be proved of
them. -/

namespace Sys2Proof

/-- The OPEN parameters of R8. They are constants of one machine; every statement over all states is a
statement over all their values. -/
structure Params where
  /-- The highest legal context number: `N_CTX - 1`, so that 1 <= N_CTX <= 32 holds by type (R8, D17). -/
  lastCtx : Fin 32
  /-- `ENG_ID_VALUE`, what ENG_ID reads (R45, D30). -/
  engId : Word
  /-- `REG_BASE`, where the platform puts register offset 0x000 (R53). The model works on offsets, as R8
  says, so no rule reads it. -/
  regBase : Addr
  /-- `DMA_COHERENT` (R65, R66). When false the host's cache maintenance is a premise (spec/93 section 2);
  the memory of the state is memory as the block's port sees it, so no rule of the block reads it. -/
  dmaCoherent : Bool
  deriving DecidableEq, Repr

/-- Who draws a free value. The tag keeps the draws of DE, CU and the host port apart, so that no two
draws are the same value by construction. -/
inductive FreeUse where
  | de
  | cu
  | host
  deriving DecidableEq, Repr

/-- A free 32-bit value (DESIGN CHOICE, log entry 6): `H[n]` after a BUS error (R131), DE_Hn read while
BUSY (R38). No body: nothing constrains it. -/
opaque Config.freeWord : FreeUse → Nat → BitVec 32

/-- A free byte (DESIGN CHOICE, log entry 6): output bytes after a BUS error (R131, R132) or a reset that
abandons a command (R144), and an S-box entry or cursor that the spec calls unspecified (R116, R132). -/
opaque Config.freeByte : FreeUse → Nat → BitVec 8

/-- A free bit (DESIGN CHOICE, log entry 6): the CU_VALID bit of the running command's context (R44). -/
opaque Config.freeBit : FreeUse → Nat → Bool

end Sys2Proof
end

