-- ==== Sys2Proof/Machine/State.lean ====
section
/-! DEFINITION. The state of the block as plain data, the reasons a step can stop, and the state after reset
(R142, R145). Each field cites the rule that names it; the fields the spec does not name are the model's own
and say so. -/

namespace Sys2Proof.Machine

/-- STATUS of one unit (R34, R40): bits 0 to 3 and the ERRCODE field. Bits 7:4 and 31:12 are reserved and have
no storage. -/
structure Status where
  /-- 1 while a command is in progress. -/
  busy : Bool
  /-- 1 when the last accepted command completed without error. -/
  done : Bool
  /-- 1 when the last accepted command ended with an error. -/
  err : Bool
  /-- 1 when a CMD write arrived while BUSY and was dropped. -/
  ovr : Bool
  /-- ERRCODE, bits 11:8. -/
  errCode : BitVec 4
  deriving DecidableEq, Repr

/-- The error codes of R124; 0xA to 0xF are never reported. -/
inductive ErrCode where
  | illegalCmd
  | length
  | range
  | bus
  | keyEmpty
  | ctxRange
  | ctxInvalid
  | ctxActive
  | overlap
  deriving DecidableEq, Repr

/-- The six parameter registers of one unit (R35 to R37, R41 to R43). -/
structure ParamRegs where
  srcLo : Word
  srcHi : Word
  lenLo : Word
  lenHi : Word
  dstLo : Word
  dstHi : Word
  deriving DecidableEq, Repr

/-- The five accumulator words `H[0]`..`H[4]` (R21), read as DE_H0..DE_H4 (R38). -/
structure Hash where
  h0 : Word
  h1 : Word
  h2 : Word
  h3 : Word
  h4 : Word
  deriving DecidableEq, Repr

/-- The working copy a..e of the rounds (R22). -/
structure Working where
  a : Word
  b : Word
  c : Word
  d : Word
  e : Word
  deriving DecidableEq, Repr

/-- The message schedule `W[0..79]` (R23). -/
abbrev Schedule := Vector Word 80

/-- Where a digest command in progress stands (R19: the sequencing inside a command). -/
inductive DigestPhase where
  /-- The next turn reads block `blk` and fills the schedule. -/
  | load
  /-- The next turn is round `t`, or, after round 79, adds the working copy into H. -/
  | rounds
  /-- The next turn writes the hex string. -/
  | hex
  deriving DecidableEq, Repr

/-- How a unit's accepted command takes its effect. The spec fixes no number of steps between acceptance and
completion (R152) and lets a model perform the whole effect as one transition (R67). The model's own
(DESIGN CHOICE, log entry 3). -/
inductive Pace where
  /-- In the transition that accepts it. -/
  | whole
  /-- In turns of the unit, BUSY = 1 in between. -/
  | stepped
  deriving DecidableEq, Repr

/-- The Digest Engine. -/
structure DigestEngine where
  /-- DE_STATUS (R34). -/
  status : Status
  /-- `p`, bytes of the padded message already consumed (R24). -/
  p : Nat
  /-- `blk`, the block number (R24). -/
  blk : Nat
  /-- `t`, the round number (R24). -/
  t : Nat
  /-- The sequencer's place (R24, R19). -/
  phase : DigestPhase
  /-- DE_SRC, DE_LEN, DE_DST (R35, R36, R37). -/
  regs : ParamRegs
  /-- `H[0..4]` (R21). -/
  h : Hash
  /-- a..e (R22). -/
  work : Working
  /-- `W[0..79]` (R23). -/
  sched : Schedule
  /-- Latched message address (R25). -/
  src : Addr
  /-- Latched message length (R25). -/
  len : Addr
  /-- Latched hex string address (R25). -/
  dst : Addr
  /-- Latched V: false SHA-0, true SHA-1 (R25, R72). -/
  v : Bool
  /-- Latched HEX (R25, R72). -/
  hex : Bool
  /-- The model's own (log entry 3). -/
  pace : Pace
  /-- The platform's draws, one per memory access of DE: true is a bus error (R63); none left is no error.
  The model's own (log entry 5). -/
  bus : List Bool
  /-- How many free values DE has drawn. The model's own (log entry 6). -/
  draws : Nat
  deriving DecidableEq, Repr

/-- An RC4 S-box: 256 bytes (R26). -/
abbrev Sbox := Vector Byte 256

/-- A cipher context (R26). -/
structure Context where
  /-- `S[c][0..255]`. -/
  sbox : Sbox
  /-- Cursor `i[c]`. -/
  i : Byte
  /-- Cursor `j[c]`. -/
  j : Byte
  /-- `VALID[c]`. -/
  valid : Bool
  deriving DecidableEq, Repr

/-- The operation code of a cipher command (R30, R73). -/
inductive CipherOp where
  | new
  | xform
  | free
  deriving DecidableEq, Repr

/-- Where an RC4.NEW in progress stands (R114). -/
inductive KeyPhase where
  /-- The next turn reads the key bytes. -/
  | readKey
  /-- The next turn is iteration `k`, or, after k = 255, sets the cursors and VALID. -/
  | schedule
  deriving DecidableEq, Repr

/-- The Cipher Unit. -/
structure CipherUnit where
  /-- CU_STATUS (R40). -/
  status : Status
  /-- `k`, the key-schedule index (R29). -/
  k : Nat
  /-- `n`, the transform byte index (R29). -/
  n : Nat
  /-- The sequencer's place in RC4.NEW (R29). -/
  phase : KeyPhase
  /-- How many free values CU has drawn. The model's own (log entry 6). -/
  draws : Nat
  /-- CU_SRC, CU_LEN, CU_DST (R41, R42, R43). -/
  regs : ParamRegs
  /-- The contexts; those numbered below N_CTX exist (R26), the others are never reached (R113). -/
  ctxs : Vector Context 32
  /-- Latched CTX (R30). -/
  ctx : Byte
  /-- Latched operation code (R30). -/
  op : CipherOp
  /-- Latched key or input address (R30). -/
  src : Addr
  /-- Latched key or input length (R30). -/
  len : Addr
  /-- Latched output address (R30). -/
  dst : Addr
  /-- `x`, the key-schedule accumulator (R29). -/
  x : Byte
  /-- The key bytes read, `Kb` (R29, R114). -/
  key : List Byte
  /-- The model's own (log entry 3). -/
  pace : Pace
  /-- The platform's draws, one per memory access of CU (R63). The model's own (log entry 5). -/
  bus : List Bool
  deriving DecidableEq, Repr

/-- A run of host memory addresses. -/
structure Range where
  base : Nat
  size : Nat
  deriving DecidableEq, Repr

/-- What happens next outside the units' own rules (R9): a HOST access, a turn of a unit, or reset. -/
inductive Event where
  /-- A HOST register read at a byte offset, `bits` wide (R56). -/
  | regRead (off : BitVec 9) (bits : Nat)
  /-- A HOST register write at a byte offset, `bits` wide (R56). -/
  | regWrite (off : BitVec 9) (bits : Nat) (v : Word)
  /-- A HOST read of one byte of host memory (R9). -/
  | memRead (a : Addr)
  /-- A HOST write of one byte of host memory (R9). -/
  | memWrite (a : Addr) (b : Byte)
  /-- DE takes its next step if it has a command in progress. -/
  | deTurn
  /-- CU takes its next step if it has a command in progress. -/
  | cuTurn
  /-- The reset input is asserted (R142). -/
  | reset
  deriving DecidableEq, Repr

/-- Host memory (R52): addresses strictly rising, no entry equal to what an unlisted address reads as. -/
abbrev Memory := List Host.Cell

/-- What a byte of host memory that nothing has written reads as. The spec gives no contents (DESIGN CHOICE,
unsafe, log entry 7). -/
def Memory.unlisted : Byte := 0x00

/-- The canonical form of memory. -/
abbrev Memory.wf (m : Memory) : Prop :=
  m.Pairwise (fun x y => x.1 < y.1) ∧ ∀ c ∈ m, c.1 < 2 ^ 64 ∧ c.2 ≠ Memory.unlisted

/-- The machine: the block, the host memory it reaches, and what the outside does next. -/
structure State where
  /-- The OPEN parameters (R8). -/
  params : Params
  /-- The Digest Engine (R2). -/
  de : DigestEngine
  /-- The Cipher Unit (R2). -/
  cu : CipherUnit
  /-- Host memory as the block's memory port sees it (R52, R65). -/
  mem : Memory
  /-- Where the platform has devices with read side effects (R60). The model's own (log entry 11). -/
  devices : List Range
  /-- What the outside does next, the first first (R9, R57). The model's own (log entry 1). -/
  inputs : List Event
  /-- What the last HOST read returned. The model's own (log entry 20). -/
  rdata : Word
  /-- How many free values HOST reads have drawn. The model's own (log entry 6). -/
  hostDraws : Nat
  deriving DecidableEq, Repr

/-- Why the machine stops with a fault (R134). -/
inductive Fault where
  /-- Raised by a HOST register access that is not 32 bits wide at a multiple of 4 (R56). Safe: the hardware
  answers with an error response and goes on. -/
  | hostBadAccess
  /-- Raised by a HOST memory access to a buffer of a command in progress, and by a command that starts while
  the other unit's command in progress uses its bytes (R68). Safe: the spec gives the access no value. -/
  | hostContract
  deriving DecidableEq, Repr

/-- Why the machine refuses. -/
inductive Refusal where
  /-- Raised by an arm of exec whose command has no meaning yet. Safe. -/
  | notModelled (mnemonic : String)
  /-- Raised by a command, or a HOST memory access, whose range covers memory with read side effects (R60).
  Safe: the spec gives no result. -/
  | deviceRange
  deriving DecidableEq, Repr

/-- STATUS after reset (R34, R40, R145). -/
def Status.reset : Status := { busy := false, done := false, err := false, ovr := false, errCode := 0 }

/-- Parameter registers after reset (R31). -/
def ParamRegs.reset : ParamRegs := { srcLo := 0, srcHi := 0, lenLo := 0, lenHi := 0, dstLo := 0, dstHi := 0 }

/-- DE after reset (R142, R145). The internal fields the spec leaves unspecified (R143) are 0 (DESIGN CHOICE,
unsafe, log entry 8). -/
def DigestEngine.reset : DigestEngine where
  status := Status.reset
  regs := ParamRegs.reset
  h := { h0 := 0, h1 := 0, h2 := 0, h3 := 0, h4 := 0 }
  work := { a := 0, b := 0, c := 0, d := 0, e := 0 }
  sched := Vector.replicate 80 0
  src := 0
  len := 0
  dst := 0
  v := false
  hex := false
  p := 0
  blk := 0
  t := 0
  phase := .load
  pace := .whole
  bus := []
  draws := 0

/-- A context after reset: VALID = 0 (R26, R142); S, i and j, unspecified (R143), are 0 (DESIGN CHOICE, unsafe,
log entry 8). -/
def Context.reset : Context := { sbox := Vector.replicate 256 0, i := 0, j := 0, valid := false }

/-- CU after reset (R142, R145). The internal fields the spec leaves unspecified (R143) are 0 or empty (DESIGN
CHOICE, unsafe, log entry 8). -/
def CipherUnit.reset : CipherUnit where
  status := Status.reset
  regs := ParamRegs.reset
  ctxs := Vector.replicate 32 Context.reset
  ctx := 0
  op := .free
  src := 0
  len := 0
  dst := 0
  k := 0
  x := 0
  key := []
  n := 0
  phase := .readKey
  pace := .whole
  bus := []
  draws := 0

/-- The OPEN parameters of the machine `State.reset` is (DESIGN CHOICE, unsafe, log entry 9): N_CTX = 4, as in
spec/95 section 3.4. No statement rests on them. -/
def Params.initial : Params := { lastCtx := 3, engId := 0, regBase := 0, dmaCoherent := true }

/-- The machine right after reset (R142, R145), host memory unwritten and nothing waiting. -/
def State.reset : State where
  params := Params.initial
  de := DigestEngine.reset
  cu := CipherUnit.reset
  mem := []
  devices := []
  inputs := []
  rdata := 0
  hostDraws := 0

end Sys2Proof.Machine
end

