-- ==== Sys2Proof/Machine/Ops.lean ====
section
/-! DEFINITION. The named operations over memory, contexts and STATUS: byte reads and writes with the platform's
bus draws (R15, R63), free values for the "any value" items (R131, R132, R144), and recording an error in STATUS
with the ways back from it (R125, R133). -/

namespace Sys2Proof.Machine

/-- The byte at an address: the block's MemRead without the bus (R15, R60). -/
def Memory.read : Memory → Nat → Byte
  | [], _ => Memory.unlisted
  | (k, v) :: m, a => if k = a then v else Memory.read m a

/-- Memory with no entry for an address. -/
def Memory.erase (m : Memory) (a : Nat) : Memory := m.filter (fun c => c.1 != a)

/-- Memory with an entry put in address order. -/
def Memory.insert : Memory → Nat → Byte → Memory
  | [], a, b => [(a, b)]
  | c :: m, a, b => if a < c.1 then (a, b) :: c :: m else c :: Memory.insert m a b

/-- A byte written: MemWrite without the bus (R15). Writing what an unlisted address reads as removes the
entry, so that equal memories are equal data. -/
def Memory.write (m : Memory) (a : Nat) (b : Byte) : Memory :=
  if b = Memory.unlisted then Memory.erase m a else Memory.insert (Memory.erase m a) a b

/-- The address of byte `k` of a buffer (R54). A command that passed its RANGE check never wraps (R113, R94). -/
def byteAddr (base : Addr) (k : Nat) : Nat := (base.toNat + k) % 2 ^ 64

/-- The `n` bytes of a buffer from byte `k` on, lowest address first (R16). -/
def Memory.slice (m : Memory) (base : Addr) (k : Nat) : Nat → List Byte
  | 0 => []
  | n + 1 => m.read (byteAddr base k) :: Memory.slice m base (k + 1) n

/-- Bytes written to a buffer from its byte `k` on. -/
def Memory.writeRun (m : Memory) (base : Addr) (k : Nat) : List Byte → Memory
  | [] => m
  | b :: bs => Memory.writeRun (m.write (byteAddr base k) b) base (k + 1) bs

/-- Every byte of a buffer of `n` bytes holds any value (R131, R132, R144): free bytes drawn from number `d`. -/
def Memory.scramble (m : Memory) (use : FreeUse) (d : Nat) (base : Addr) : Nat → Memory
  | 0 => m
  | n + 1 => (Memory.scramble m use d base n).write (byteAddr base n) (Config.freeByte use (d + n))

/-- The platform's answer to the next memory access: true is a bus error (R63). -/
def busError (bus : List Bool) : Bool := bus.headD false

/-- Bytes read from a buffer from its byte `k` on, each access with its own draw, up to the first bus error
(R15, R63): the bytes, none after a bus error, and the draws left. -/
def memFetch (m : Memory) (bus : List Bool) (base : Addr) (k : Nat) : Nat → Option (List Byte) × List Bool
  | 0 => (some [], bus)
  | n + 1 =>
    if busError bus then (none, bus.tail)
    else
      let r := memFetch m bus.tail base (k + 1) n
      (r.1.map (fun bs => m.read (byteAddr base k) :: bs), r.2)

/-- Bytes written to a buffer from its byte `k` on, each access with its own draw, up to the first bus error
(R15, R63): the memory, none after a bus error, and the draws left. -/
def memStore (m : Memory) (bus : List Bool) (base : Addr) (k : Nat) : List Byte → Option Memory × List Bool
  | [] => (some m, bus)
  | b :: bs =>
    if busError bus then (none, bus.tail)
    else memStore (m.write (byteAddr base k) b) bus.tail base (k + 1) bs

/-- Two byte ranges share an address. -/
def Range.meets (r q : Range) : Bool :=
  decide (r.base < q.base + q.size) && decide (q.base < r.base + r.size) && decide (0 < r.size) && decide (0 < q.size)

/-- An address lies in a range. -/
def Range.holds (r : Range) (a : Nat) : Bool := decide (r.base ≤ a) && decide (a < r.base + r.size)

/-- Some range of the first list meets one of the second. -/
def rangesMeet (rs qs : List Range) : Bool := rs.any (fun r => qs.any (fun q => r.meets q))

/-- Some range holds the address. -/
def rangesHold (rs : List Range) (a : Nat) : Bool := rs.any (fun r => r.holds a)

/-- The draws DE has left after memory accesses (R63). -/
def setDeBus (s : State) (bus : List Bool) : State := { s with de := { s.de with bus := bus } }

/-- The draws CU has left after memory accesses (R63). -/
def setCuBus (s : State) (bus : List Bool) : State := { s with cu := { s.cu with bus := bus } }

/-- The ERRCODE of an error (R124). -/
def ErrCode.code : ErrCode → BitVec 4
  | .illegalCmd => 0x1
  | .length => 0x2
  | .range => 0x3
  | .bus => 0x4
  | .keyEmpty => 0x5
  | .ctxRange => 0x6
  | .ctxInvalid => 0x7
  | .ctxActive => 0x8
  | .overlap => 0x9

/-- A command ends with an error, `raise ERR(e)`: BUSY <- 0, ERR <- 1, ERRCODE <- e (R50, R125). The one
operation every error goes through. -/
def Status.raise (st : Status) (e : ErrCode) : Status := { st with busy := false, err := true, errCode := e.code }

/-- The error state is ended: ERR <- 0, ERRCODE <- 0 (R133, R47). -/
def Status.clearErr (st : Status) : Status := { st with err := false, errCode := 0 }

/-- The slot a context number names; exact for every number below N_CTX, the only ones a command reaches
(R113). -/
def slot (c : Nat) : Fin 32 := Fin.ofNat 32 c

/-- Context `c` (R26). -/
def CipherUnit.context (u : CipherUnit) (c : Nat) : Context := u.ctxs[(slot c).val]'(slot c).isLt

/-- Context `c` replaced (R26). -/
def CipherUnit.setContext (u : CipherUnit) (c : Nat) (x : Context) : CipherUnit :=
  { u with ctxs := u.ctxs.set (slot c).val x (slot c).isLt }

/-- An invalid context whose S-box and cursors are unspecified (R116, R132): free bytes drawn from number
`d` on. -/
def Context.unspecified (use : FreeUse) (d : Nat) : Context where
  sbox := Vector.ofFn (fun k => Config.freeByte use (d + k.val))
  i := Config.freeByte use (d + 256)
  j := Config.freeByte use (d + 257)
  valid := false

/-- How many free bytes an unspecified context draws. -/
def Context.unspecifiedDraws : Nat := 258

/-- Any value in every accumulator word (R131): free words drawn from number `d` on. -/
def Hash.unspecified (use : FreeUse) (d : Nat) : Hash where
  h0 := Config.freeWord use d
  h1 := Config.freeWord use (d + 1)
  h2 := Config.freeWord use (d + 2)
  h3 := Config.freeWord use (d + 3)
  h4 := Config.freeWord use (d + 4)

/-- How many free words an unspecified hash draws. -/
def Hash.unspecifiedDraws : Nat := 5

end Sys2Proof.Machine
end

