-- ==== Sys2Proof/Machine/Operands.lean ====
section
/-! DEFINITION. How a command's operands are assembled from the parameter registers (R74, R25, R30), the host
memory ranges a command reads and writes, and the acceptance checks on them (R94, R113, R128). -/

namespace Sys2Proof.Machine

/-- The source address `SRC_HI || SRC_LO` (R25, R30, R74). -/
def ParamRegs.src (r : ParamRegs) : Addr := r.srcHi ++ r.srcLo

/-- The length `LEN_HI || LEN_LO` (R25, R30, R74). -/
def ParamRegs.len (r : ParamRegs) : Addr := r.lenHi ++ r.lenLo

/-- The destination address `DST_HI || DST_LO` (R25, R30, R74). -/
def ParamRegs.dst (r : ParamRegs) : Addr := r.dstHi ++ r.dstLo

/-- `N_CTX` (R8, R26). -/
def nCtx (p : Params) : Nat := p.lastCtx.val + 1

/-- `MAX_MSG_LEN` (R8, R36). -/
def maxMsgLen : Nat := 2 ^ 61 - 1

/-- The length of the hex string (R91). -/
def hexBytes : Nat := 40

/-- A buffer of `n` bytes, `n` at least 1, runs past the top of memory: `base + (n - 1) > 2^64 - 1`, computed
without wrap-around (R94, R113). -/
def pastTop (base : Addr) (n : Nat) : Bool := decide (base.toNat + (n - 1) > 2 ^ 64 - 1)

/-- How many key bytes RC4.NEW reads, `KU = min(len, 256)` (R106, R113). -/
def keyUsed (len : Addr) : Nat := min len.toNat 256

/-- The digest checks after the command word's own, in the order of R94; none if all pass. -/
def digestCheck (hex : Bool) (r : ParamRegs) : Option ErrCode :=
  if r.len.toNat > maxMsgLen then some .length
  else if 0 < r.len.toNat ∧ pastTop r.src r.len.toNat then some .range
  else if hex = true ∧ pastTop r.dst hexBytes then some .range
  else none

/-- Input and output overlap without being equal (R113, R117). -/
def partialOverlap (src dst : Addr) (n : Nat) : Bool :=
  decide (src ≠ dst) && decide (src.toNat < dst.toNat + n) && decide (dst.toNat < src.toNat + n)

/-- The RC4.NEW checks on an existing context, in the order of R113. -/
def newCheck (r : ParamRegs) (x : Context) : Option ErrCode :=
  if x.valid then some .ctxActive
  else if r.len.toNat = 0 then some .keyEmpty
  else if pastTop r.src (keyUsed r.len) then some .range
  else none

/-- The RC4.XFORM checks on an existing context, in the order of R113. A length of 0 passes them all once the
context is valid (R112, R128). -/
def xformCheck (r : ParamRegs) (x : Context) : Option ErrCode :=
  if !x.valid then some .ctxInvalid
  else if r.len.toNat = 0 then none
  else if pastTop r.src r.len.toNat ∨ pastTop r.dst r.len.toNat then some .range
  else if partialOverlap r.src r.dst r.len.toNat then some .overlap
  else none

/-- The cipher checks after the command word's own, in the order of R113; none if all pass. -/
def cipherCheck (op : CipherOp) (c n : Nat) (u : CipherUnit) : Option ErrCode :=
  if n ≤ c then some .ctxRange
  else match op with
    | .new => newCheck u.regs (u.context c)
    | .xform => xformCheck u.regs (u.context c)
    | .free => none

/-- The bytes a digest command reads: `src .. src + L - 1` (R96). -/
def digestReads (src len : Addr) : List Range := [{ base := src.toNat, size := len.toNat }]

/-- The bytes a digest command writes: `dst .. dst + 39` for .HEX, none otherwise (R97, R101). -/
def digestWrites (hex : Bool) (dst : Addr) : List Range :=
  if hex then [{ base := dst.toNat, size := hexBytes }] else []

/-- The bytes a cipher command reads: the key bytes used, or the input (R114, R115). For a key longer than 256 bytes
these are its first 256 bytes, and the range that R60 speaks of is taken to be them: a device in the bytes never read
does not refuse the command (DESIGN CHOICE, log entry 11). -/
def cipherReads (op : CipherOp) (src len : Addr) : List Range :=
  match op with
  | .new => [{ base := src.toNat, size := keyUsed len }]
  | .xform => [{ base := src.toNat, size := len.toNat }]
  | .free => []

/-- The bytes a cipher command writes: the output of RC4.XFORM (R115). -/
def cipherWrites (op : CipherOp) (dst len : Addr) : List Range :=
  match op with
  | .new => []
  | .xform => [{ base := dst.toNat, size := len.toNat }]
  | .free => []

/-- The bytes the digest command in progress reads; none when DE is idle. -/
def DigestEngine.reads (d : DigestEngine) : List Range := if d.status.busy then digestReads d.src d.len else []

/-- The bytes the digest command in progress writes; none when DE is idle. -/
def DigestEngine.writes (d : DigestEngine) : List Range := if d.status.busy then digestWrites d.hex d.dst else []

/-- The bytes the cipher command in progress reads; none when CU is idle. -/
def CipherUnit.reads (u : CipherUnit) : List Range := if u.status.busy then cipherReads u.op u.src u.len else []

/-- The bytes the cipher command in progress writes; none when CU is idle. -/
def CipherUnit.writes (u : CipherUnit) : List Range := if u.status.busy then cipherWrites u.op u.dst u.len else []

/-- A command with these ranges must not run beside one in progress with those: a range one unit writes is
neither read nor written by the other (R68). -/
def breaksContract (reads writes otherReads otherWrites : List Range) : Bool :=
  rangesMeet writes (otherReads ++ otherWrites) || rangesMeet reads otherWrites

end Sys2Proof.Machine
end

