-- ==== Sys2Proof/Machine/Flags.lean ====
section
/-! DEFINITION. The flags of the block, all in STATUS (R20): how STATUS reads (R34, R40), what a host write does to
it (R47), the transitions of a command (R48, R49, R50), and how CU_VALID and ENG_PARAM read (R44, R46). -/

namespace Sys2Proof.Machine

/-- STATUS as a register read gives it: BUSY bit 0, DONE 1, ERR 2, OVR 3, ERRCODE 11:8, reserved bits 0 (R34). -/
def Status.view (st : Status) : Word :=
  0#20 ++ st.errCode ++ 0#4 ++ BitVec.ofBool st.ovr ++ BitVec.ofBool st.err ++ BitVec.ofBool st.done ++
    BitVec.ofBool st.busy

/-- A host write to STATUS, in the order of R47; every other bit of the value is ignored. -/
def Status.hostWrite (st : Status) (v : Word) : Status :=
  let st1 := if v.getLsbD 1 then { st with done := false } else st
  let st2 := if v.getLsbD 2 then st1.clearErr else st1
  if v.getLsbD 3 then { st2 with ovr := false } else st2

/-- A command is accepted: DONE <- 0, ERR <- 0, ERRCODE <- 0; OVR is not changed (R48). -/
def Status.accept (st : Status) : Status := { st.clearErr with done := false }

/-- An accepted command that passed every check is in progress: BUSY <- 1 (R48). -/
def Status.start (st : Status) : Status := { st with busy := true }

/-- A command completes without error: BUSY <- 0, DONE <- 1 (R50). -/
def Status.complete (st : Status) : Status := { st with busy := false, done := true }

/-- A command written while BUSY is dropped: OVR <- 1 and nothing else (R49). -/
def Status.drop (st : Status) : Status := { st with ovr := true }

/-- The bits 0 to `n - 1` of a register whose bit `c` is `f c`, the others 0. -/
def bitsBelow (f : Nat → Bool) : Nat → Word
  | 0 => 0
  | c + 1 => bitsBelow f c ||| (if f c then 1#32 <<< c else 0)

/-- Bit `c` of CU_VALID: `VALID[c]`, or any value for the context that the command in progress names (R44). -/
def CipherUnit.validBit (u : CipherUnit) (free : Bool) (c : Nat) : Bool :=
  if u.status.busy ∧ c = u.ctx.toNat then free else (u.context c).valid

/-- CU_VALID: bit `c` for each `c` below N_CTX, the others 0 (R44). -/
def CipherUnit.validView (u : CipherUnit) (n : Nat) (free : Bool) : Word := bitsBelow (u.validBit free) n

/-- ENG_PARAM: NCTX bits 5:0, HAS_SHA0, HAS_SHA1, HAS_RC4 bits 8, 9, 10 all 1, the others 0 (R46). -/
def engParam (p : Params) : Word := 0#21 ++ 0b111#3 ++ 0#2 ++ BitVec.ofNat 6 (nCtx p)

end Sys2Proof.Machine
end

