-- ==== Sys2Proof/Machine/Rc4.lean ====
section
/-! DEFINITION. RC4 as pure functions on one context: section 1 of spec/41 (R103 to R112). -/

namespace Sys2Proof.Machine

/-- Entry `k` of an S-box; an 8-bit index is always in range (R13). -/
def sboxAt (s : Sbox) (k : Byte) : Byte := s[k.toNat]'k.isLt

/-- Entry `k` of an S-box written. -/
def sboxPut (s : Sbox) (k v : Byte) : Sbox := s.set k.toNat v k.isLt

/-- Two entries swapped; nothing changes when they are the same (R104, R107). -/
def sboxSwap (s : Sbox) (i j : Byte) : Sbox := sboxPut (sboxPut s i (sboxAt s j)) j (sboxAt s i)

/-- The identity permutation (R103). -/
def identityBox : Sbox := Vector.ofFn (fun k => BitVec.ofNat 8 k.val)

/-- `Key[k mod KL]`, from the key bytes read and the key length KL (R104, R114). -/
def keyByte (key : List Byte) (len k : Nat) : Byte := key.getD (k % len) 0

/-- Iteration `k` of the key schedule on the S-box and the accumulator `x` (R104). -/
def ksaStep (key : List Byte) (len : Nat) (q : Sbox × Byte) (k : Nat) : Sbox × Byte :=
  let x := keyByte key len k + sboxAt q.1 (BitVec.ofNat 8 k) + q.2
  (sboxSwap q.1 (BitVec.ofNat 8 k) x, x)

/-- The key schedule: 256 iterations from the identity and x = 0 (R103, R104). -/
def ksa (key : List Byte) (len : Nat) : Sbox × Byte := (List.range 256).foldl (ksaStep key len) (identityBox, 0)

/-- A context keyed with a key of `len` bytes: the scheduled S-box, cursors 0, valid (R103, R104, R105, R114). -/
def keyedContext (key : List Byte) (len : Nat) : Context := { sbox := (ksa key len).1, i := 0, j := 0, valid := true }

/-- The context after one keystream byte (R107). -/
def ksNext (x : Context) : Context :=
  let i := x.i + 1
  let j := x.j + sboxAt x.sbox i
  { x with sbox := sboxSwap x.sbox i j, i := i, j := j }

/-- The keystream byte that the step to this context gives, read after the swap (R107). -/
def ksByte (x : Context) : Byte := sboxAt x.sbox (sboxAt x.sbox x.i + sboxAt x.sbox x.j)

/-- The context after `n` keystream bytes (R110, R111). -/
def ksAdvance (x : Context) : Nat → Context
  | 0 => x
  | n + 1 => ksAdvance (ksNext x) n

/-- The next `n` keystream bytes of a context (R107, R121). -/
def keystream (x : Context) : Nat → List Byte
  | 0 => []
  | n + 1 => ksByte (ksNext x) :: keystream (ksNext x) n

/-- Transform of a byte sequence, one keystream byte per input byte, the first first (R108). -/
def transform (x : Context) : List Byte → List Byte
  | [] => []
  | u :: us => (u ^^^ ksByte (ksNext x)) :: transform (ksNext x) us

end Sys2Proof.Machine
end

