-- ==== Sys2Proof/Machine/Cipher.lean ====
section
/-! DEFINITION. The cipher commands (spec/41 sections 2 and 3): acceptance (R113), execution (R114, R115, R116),
CU's turns, and the three meanings (R120 to R122). -/

namespace Sys2Proof.Machine

/-- A cipher command completes without error (R50). -/
def cipherComplete (s : State) : State := { s with cu := { s.cu with status := s.cu.status.complete } }

/-- A cipher command ends with error BUS (R132): the context it names is invalid and its S-box and cursors are
unspecified; for RC4.XFORM every byte of dst..dst+len-1 holds any value; no other byte changes. -/
def cipherBusError (s : State) : State :=
  let u := s.cu
  let u1 := u.setContext u.ctx.toNat (Context.unspecified .cu u.draws)
  let d1 := u.draws + Context.unspecifiedDraws
  match u.op with
  | .xform =>
    { s with
      cu := { u1 with status := u.status.raise .bus, draws := d1 + u.len.toNat }
      mem := s.mem.scramble .cu d1 u.dst u.len.toNat }
  | .new => { s with cu := { u1 with status := u.status.raise .bus, draws := d1 } }
  | .free => { s with cu := { u1 with status := u.status.raise .bus, draws := d1 } }

/-- The key bytes are in: the S-box becomes the identity, x and k are 0 (R103, R104). -/
def newKeyed (kb : List Byte) (s : State) : State :=
  let u := s.cu
  let u1 := u.setContext u.ctx.toNat { u.context u.ctx.toNat with sbox := identityBox }
  { s with cu := { u1 with key := kb, k := 0, x := 0, phase := .schedule } }

/-- RC4.NEW reads its key bytes, `KU = min(len, 256)` of them (R114). -/
def newReadKey (s : State) : State :=
  match memFetch s.mem s.cu.bus s.cu.src 0 (keyUsed s.cu.len) with
  | (some kb, bus) => newKeyed kb (setCuBus s bus)
  | (none, bus) => cipherBusError (setCuBus s bus)

/-- Iteration `k` of the key schedule on the context (R104). -/
def newSchedule (s : State) : State :=
  let u := s.cu
  let x := u.context u.ctx.toNat
  let q := ksaStep u.key u.len.toNat (x.sbox, u.x) u.k
  { s with cu := { u.setContext u.ctx.toNat { x with sbox := q.1 } with x := q.2, k := u.k + 1 } }

/-- The whole key schedule at once (R103, R104). -/
def newScheduleAll (s : State) : State :=
  let u := s.cu
  let q := ksa u.key u.len.toNat
  { s with cu := { u.setContext u.ctx.toNat { u.context u.ctx.toNat with sbox := q.1 } with x := q.2, k := 256 } }

/-- RC4.NEW ends: cursors 0, VALID <- 1, complete (R105, R114). -/
def newFinish (s : State) : State :=
  let u := s.cu
  let x := u.context u.ctx.toNat
  cipherComplete { s with cu := u.setContext u.ctx.toNat { x with i := 0, j := 0, valid := true } }

/-- Byte `n` is transformed: its keystream byte taken, the output byte written, `n` advanced (R115, R107, R108). -/
def xformWrite (s : State) : State :=
  let u := s.cu
  let x := ksNext (u.context u.ctx.toNat)
  { s with
    cu := { u.setContext u.ctx.toNat x with n := u.n + 1 }
    mem := s.mem.write (byteAddr u.dst u.n) (s.mem.read (byteAddr u.src u.n) ^^^ ksByte x) }

/-- RC4.XFORM transforms byte `n`: read, one keystream byte, write, each access with its own draw (R115). -/
def xformByte (s : State) : State :=
  let bus1 := s.cu.bus.tail
  if busError s.cu.bus then cipherBusError (setCuBus s bus1)
  else if busError bus1 then cipherBusError (setCuBus s bus1.tail)
  else xformWrite (setCuBus s bus1.tail)

/-- RC4.FREE: VALID <- 0, the S-box and the cursors unspecified, complete (R116). -/
def freeFinish (s : State) : State :=
  let u := s.cu
  let u1 := u.setContext u.ctx.toNat (Context.unspecified .cu u.draws)
  cipherComplete { s with cu := { u1 with draws := u.draws + Context.unspecifiedDraws } }

/-- CU takes its next step: nothing when idle (R141), else what its sequencer stands before (R114, R115, R116). -/
def cipherTurn (s : State) : State :=
  if s.cu.status.busy then
    match s.cu.op with
    | .new =>
      match s.cu.phase with
      | .readKey => newReadKey s
      | .schedule => if s.cu.k < 256 then newSchedule s else newFinish s
    | .xform => if s.cu.n < s.cu.len.toNat then xformByte s else cipherComplete s
    | .free => freeFinish s
  else s

/-- The byte loop of R115, `n` bytes, up to a bus error. -/
def xformBytes : Nat → State → State
  | 0, s => s
  | n + 1, s =>
    let s1 := xformByte s
    if s1.cu.status.busy then xformBytes n s1 else s1

/-- RC4.NEW runs to its completion (R114). -/
def newRun (s : State) : State :=
  let s1 := newReadKey s
  if s1.cu.status.busy then newFinish (newScheduleAll s1) else s1

/-- RC4.XFORM runs to its completion (R115). -/
def xformRun (s : State) : State :=
  let s1 := xformBytes s.cu.len.toNat s
  if s1.cu.status.busy then cipherComplete s1 else s1

/-- A cipher command that has started runs to its completion (R114, R115, R116). -/
def cipherRun (s : State) : State :=
  match s.cu.op with
  | .new => newRun s
  | .xform => xformRun s
  | .free => freeFinish s

/-- CU copies the operands of a command: CTX, the operation code, and SRC, LEN and DST from the parameter registers
(R30, R113). -/
def cipherLatch (op : CipherOp) (c : Nat) (u : CipherUnit) : CipherUnit :=
  { u with
    op := op
    ctx := BitVec.ofNat 8 c
    src := u.regs.src
    len := u.regs.len
    dst := u.regs.dst }

/-- A cipher command that passed every check starts: operands latched (R30), BUSY <- 1 (R48). -/
def cipherStart (op : CipherOp) (c : Nat) (u : CipherUnit) : CipherUnit :=
  { cipherLatch op c u with
    status := u.status.accept.start
    k := 0
    x := 0
    key := []
    n := 0
    phase := .readKey }

/-- RC4.XFORM of length 0: completes at acceptance, with no access and no change of a context (R112, R113). -/
def emptyXform (op : CipherOp) (r : ParamRegs) : Bool := decide (op = .xform) && decide (r.len.toNat = 0)

/-- A cipher command that passed every check and has nothing to do completes at acceptance: operands latched as for
every accepted command (R30, R113), no context changed (R112), DONE <- 1 (R50). -/
def cipherAtOnce (op : CipherOp) (c : Nat) (u : CipherUnit) : CipherUnit :=
  { cipherLatch op c u with status := u.status.accept.complete }

/-- A cipher command written to CU_CMD: dropped while BUSY (R49); else accepted and checked (R48, R113); if every
check passes it starts, unless its ranges cover a device (R60) or meet the other unit's (R68). A command that
fails a check latches no operands (DEDUCED, log entry 22). -/
def cipherCommand (op : CipherOp) (c : Nat) (s : State) : Host.Outcome State Fault Refusal :=
  let r := s.cu.regs
  let reads := cipherReads op r.src r.len
  let writes := cipherWrites op r.dst r.len
  if s.cu.status.busy then .next { s with cu := { s.cu with status := s.cu.status.drop } }
  else match cipherCheck op c (nCtx s.params) s.cu with
    | some e => .next { s with cu := { s.cu with status := s.cu.status.accept.raise e } }
    | none =>
      if emptyXform op r then .next { s with cu := cipherAtOnce op c s.cu }
      else if rangesMeet (reads ++ writes) s.devices then .refused .deviceRange
      else if breaksContract reads writes s.de.reads s.de.writes then .fault .hostContract
      else match s.cu.pace with
        | .whole => .next (cipherRun { s with cu := cipherStart op c s.cu })
        | .stepped => .next { s with cu := cipherStart op c s.cu }

/-- RC4.NEW (R120). -/
def execRc4New (ctx : Nat) (s : State) : Host.Outcome State Fault Refusal := cipherCommand .new ctx s

/-- RC4.XFORM (R121). -/
def execRc4Xform (ctx : Nat) (s : State) : Host.Outcome State Fault Refusal := cipherCommand .xform ctx s

/-- RC4.FREE (R122). -/
def execRc4Free (ctx : Nat) (s : State) : Host.Outcome State Fault Refusal := cipherCommand .free ctx s

end Sys2Proof.Machine
end

