-- ==== Sys2Proof/Machine/Sha.lean ====
section
/-! DEFINITION. SHA-0 and SHA-1 as pure functions: section 1 of spec/40 (R80 to R91). The variant `v` is false for
SHA-0 and true for SHA-1 (R72). -/

namespace Sys2Proof.Machine

/-- The circular left rotation of a 32-bit word, 0 < n < 32 (R12). -/
def rotl (a : Word) (n : Nat) : Word := (a <<< n) ||| (a >>> (32 - n))

/-- `b0 || b1 || b2 || b3`, `b0` most significant (R16). -/
def be32 (b0 b1 b2 b3 : Byte) : Word := b0 ++ b1 ++ b2 ++ b3

/-- The initial accumulator value IV (R80). -/
def Hash.iv : Hash where
  h0 := 0x67452301
  h1 := 0xEFCDAB89
  h2 := 0x98BADCFE
  h3 := 0x10325476
  h4 := 0xC3D2E1F0

/-- `z`, the number of zero bytes of the padding: (55 - L) mod 64 over the integers (R81). -/
def padZeros (len : Nat) : Nat := (119 - len % 64) % 64

/-- `N`, the number of blocks of the padded message (R82). -/
def blockCount (len : Nat) : Nat := (len + 8) / 64 + 1

/-- Byte `q` of `BE64(8 * L)`, most significant at `q = 0` (R83). -/
def lengthByte (len q : Nat) : Byte := BitVec.ofNat 8 ((8 * len) >>> (56 - 8 * q))

/-- `BE64(8 * L)` (R81, R84). -/
def lengthField (len : Nat) : List Byte := (List.range 8).map (lengthByte len)

/-- The padded message (R81). -/
def pad (m : List Byte) : List Byte :=
  m ++ [0x80] ++ List.replicate (padZeros m.length) 0x00 ++ lengthField m.length

/-- Byte `p` of the padded message for `p` not below L: the bytes made inside DE (R83, R96). -/
def padByte (len p : Nat) : Byte :=
  if p = len then 0x80
  else if p < len + 1 + padZeros len then 0x00
  else lengthByte len (p - (len + 1 + padZeros len))

/-- Block `blk` of a padded message (R90). -/
def blockOf (padded : List Byte) (blk : Nat) : List Byte := (padded.drop (64 * blk)).take 64

/-- Entry `t` of the schedule. -/
def wordAt (w : Schedule) (t : Nat) : Word := w[t]?.getD 0

/-- Entry `t` of the schedule written. -/
def putWord (w : Schedule) (t : Nat) (x : Word) : Schedule := w.setIfInBounds t x

/-- Big-endian word `t` of a block (R85). -/
def blockWord (b : List Byte) (t : Nat) : Word :=
  be32 (b.getD (4 * t) 0) (b.getD (4 * t + 1) 0) (b.getD (4 * t + 2) 0) (b.getD (4 * t + 3) 0)

/-- Message ingestion: the first 16 entries are the block's words (R85). -/
def ingest (b : List Byte) : Schedule :=
  (List.range 16).foldl (fun w t => putWord w t (blockWord b t)) (Vector.replicate 80 0)

/-- Expansion of entry `t` (R86): rotated left by 1 before storage for SHA-1 only. -/
def expandStep (v : Bool) (w : Schedule) (t : Nat) : Schedule :=
  let x := wordAt w (t - 3) ^^^ wordAt w (t - 8) ^^^ wordAt w (t - 14) ^^^ wordAt w (t - 16)
  putWord w t (if v then rotl x 1 else x)

/-- The schedule of a block: R85, then R86 for t = 16..79 in increasing order. -/
def schedule (v : Bool) (b : List Byte) : Schedule := (List.range' 16 64).foldl (expandStep v) (ingest b)

/-- The round function, chosen by the round number (R87; rounds 0 to 19 are the choice function, C1). -/
def roundF (t : Nat) (b c d : Word) : Word :=
  if t < 20 then (b &&& c) ||| (~~~b &&& d)
  else if t < 40 then b ^^^ c ^^^ d
  else if t < 60 then (b &&& c) ||| (b &&& d) ||| (c &&& d)
  else b ^^^ c ^^^ d

/-- The round constant K, chosen by the round number (R87). -/
def roundK (t : Nat) : Word :=
  if t < 20 then 0x5A827999
  else if t < 40 then 0x6ED9EBA1
  else if t < 60 then 0x8F1BBCDC
  else 0xCA62C1D6

/-- Round `t` (R88); every right-hand side is a value from before the round. -/
def shaRound (w : Schedule) (x : Working) (t : Nat) : Working where
  a := rotl x.a 5 + roundF t x.b x.c x.d + x.e + roundK t + wordAt w t
  b := x.a
  c := rotl x.b 30
  d := x.c
  e := x.d

/-- The 80 rounds (R89). -/
def shaRounds (w : Schedule) (x : Working) : Working := (List.range 80).foldl (shaRound w) x

/-- The working copy loaded from H (R89). -/
def Hash.working (h : Hash) : Working := { a := h.h0, b := h.h1, c := h.h2, d := h.h3, e := h.h4 }

/-- The working values added back into the accumulators, modulo 2^32 (R89). -/
def Hash.add (h : Hash) (x : Working) : Hash where
  h0 := h.h0 + x.a
  h1 := h.h1 + x.b
  h2 := h.h2 + x.c
  h3 := h.h3 + x.d
  h4 := h.h4 + x.e

/-- Compression of one block (R89). -/
def compress (v : Bool) (h : Hash) (b : List Byte) : Hash := h.add (shaRounds (schedule v b) h.working)

/-- The digest of a message (R90): SHA-0 for `v = false`, SHA-1 for `v = true`. -/
def sha (v : Bool) (m : List Byte) : Hash :=
  (List.range (blockCount m.length)).foldl (fun h blk => compress v h (blockOf (pad m) blk)) Hash.iv

/-- Word `n` of a digest, H[0] first (R90). -/
def Hash.word (h : Hash) : Nat → Word
  | 0 => h.h0
  | 1 => h.h1
  | 2 => h.h2
  | 3 => h.h3
  | _ => h.h4

/-- The byte of a nibble: '0'..'9' or 'a'..'f' (R91). -/
def hexDigit (nib : BitVec 4) : Byte :=
  if nib ≤ 9 then 0x30 + nib.setWidth 8 else 0x61 + nib.setWidth 8 - 10

/-- Byte `k` of the hex string, most significant nibble of H[0] first (R91). -/
def hexByte (h : Hash) (k : Nat) : Byte := hexDigit ((h.word (k / 8)).extractLsb' (28 - 4 * (k % 8)) 4)

/-- The 40 bytes of the hex string (R91). -/
def hexString (h : Hash) : List Byte := (List.range hexBytes).map (hexByte h)

end Sys2Proof.Machine
end

