-- ==== Sys2Proof/Machine/Digest.lean ====
section
/-! DEFINITION. The digest commands (spec/40 sections 2 and 3): acceptance (R94), execution (R95), DE's turns, and
the four meanings (R99 to R102). A command is accepted; if every check passes it runs either in the same
transition or in turns (log entry 3); both go through the same loads, rounds and writes. -/

namespace Sys2Proof.Machine

/-- The bytes of one block from padded position `p` on (R95): message bytes read from memory, each with its own
bus draw; padding bytes made inside DE. None after a bus error; and the draws left. -/
def fetchBlock (m : Memory) (bus : List Bool) (src : Addr) (len p : Nat) : Nat → Option (List Byte) × List Bool
  | 0 => (some [], bus)
  | n + 1 =>
    if p < len then
      if busError bus then (none, bus.tail)
      else
        let r := fetchBlock m bus.tail src len (p + 1) n
        (r.1.map (fun bs => m.read (byteAddr src p) :: bs), r.2)
    else
      let r := fetchBlock m bus src len (p + 1) n
      (r.1.map (fun bs => padByte len p :: bs), r.2)

/-- A digest command ends with error BUS (R131): H any value, and for .HEX every byte of dst..dst+39 any value;
no other byte changes. -/
def digestBusError (s : State) : State :=
  let d := s.de
  { s with
    de := { d with
      status := d.status.raise .bus
      h := Hash.unspecified .de d.draws
      draws := d.draws + Hash.unspecifiedDraws + hexBytes }
    mem := if d.hex then s.mem.scramble .de (d.draws + Hash.unspecifiedDraws) d.dst hexBytes else s.mem }

/-- A digest command completes without error (R50). -/
def digestComplete (s : State) : State := { s with de := { s.de with status := s.de.status.complete } }

/-- Block `b` is in: the schedule filled, the working copy loaded from H, 64 bytes consumed (R85, R86, R89). -/
def digestLoaded (b : List Byte) (s : State) : State :=
  let d := s.de
  { s with de := { d with
      sched := schedule d.v b
      work := d.h.working
      p := d.p + 64
      t := 0
      phase := .rounds } }

/-- DE reads block `blk`, fills the schedule and loads the working copy (R95). -/
def digestLoad (s : State) : State :=
  match fetchBlock s.mem s.de.bus s.de.src s.de.len.toNat s.de.p 64 with
  | (some b, bus) => digestLoaded b (setDeBus s bus)
  | (none, bus) => digestBusError (setDeBus s bus)

/-- Round `t` (R88). -/
def digestRound (s : State) : State :=
  let d := s.de
  { s with de := { d with work := shaRound d.sched d.work d.t, t := d.t + 1 } }

/-- All 80 rounds at once (R89). -/
def digestRounds (s : State) : State :=
  let d := s.de
  { s with de := { d with work := shaRounds d.sched d.work, t := 80 } }

/-- The working copy is added into H (R89); the next block's number is next. -/
def digestFolded (s : State) : State :=
  let d := s.de
  { s with de := { d with h := d.h.add d.work, blk := d.blk + 1, t := 0, phase := .load } }

/-- The next turn writes the hex string. -/
def digestToHex (s : State) : State := { s with de := { s.de with phase := .hex } }

/-- The working copy is added into H; after the last block the command completes, or goes on to the hex string
(R95). -/
def digestFold (s : State) : State :=
  if s.de.blk + 1 < blockCount s.de.len.toNat then digestFolded s
  else if s.de.hex then digestToHex (digestFolded s)
  else digestComplete (digestFolded s)

/-- The hex string is written to dst..dst+39, then the command completes (R95, R91). -/
def digestHex (s : State) : State :=
  match memStore s.mem s.de.bus s.de.dst 0 (hexString s.de.h) with
  | (some m, bus) => digestComplete { setDeBus s bus with mem := m }
  | (none, bus) => digestBusError (setDeBus s bus)

/-- DE takes its next step: nothing when idle (R141), else what its sequencer stands before (R95, R67). -/
def digestTurn (s : State) : State :=
  if s.de.status.busy then
    match s.de.phase with
    | .load => digestLoad s
    | .rounds => if s.de.t < 80 then digestRound s else digestFold s
    | .hex => digestHex s
  else s

/-- The block loop of R95, `n` blocks, up to a bus error. -/
def digestBlocks : Nat → State → State
  | 0, s => s
  | n + 1, s =>
    let s1 := digestLoad s
    if s1.de.status.busy then digestBlocks n (digestFold (digestRounds s1)) else s1

/-- `DE_Exec` (R95): a command that has started runs to its completion. -/
def digestRun (s : State) : State :=
  let s1 := digestBlocks (blockCount s.de.len.toNat) s
  if s1.de.status.busy then digestHex s1 else s1

/-- A digest command that passed every check starts: operands latched (R25), BUSY <- 1 (R48), H <- IV (R95). -/
def digestStart (v hex : Bool) (d : DigestEngine) : DigestEngine :=
  { d with
    status := d.status.accept.start
    src := d.regs.src
    len := d.regs.len
    dst := d.regs.dst
    v := v
    hex := hex
    h := Hash.iv
    p := 0
    blk := 0
    t := 0
    phase := .load }

/-- A digest command written to DE_CMD: dropped while BUSY (R49); else accepted and checked (R48, R94); if every
check passes it starts, unless its ranges cover a device (R60) or meet the other unit's (R68). A command that fails a check
latches no operands (DEDUCED, log entry 22). -/
def digestCommand (v hex : Bool) (s : State) : Host.Outcome State Fault Refusal :=
  let r := s.de.regs
  let reads := digestReads r.src r.len
  let writes := digestWrites hex r.dst
  if s.de.status.busy then .next { s with de := { s.de with status := s.de.status.drop } }
  else match digestCheck hex r with
    | some e => .next { s with de := { s.de with status := s.de.status.accept.raise e } }
    | none =>
      if rangesMeet (reads ++ writes) s.devices then .refused .deviceRange
      else if breaksContract reads writes s.cu.reads s.cu.writes then .fault .hostContract
      else match s.de.pace with
        | .whole => .next (digestRun { s with de := digestStart v hex s.de })
        | .stepped => .next { s with de := digestStart v hex s.de }

/-- SHA0.DIGEST (R99). -/
def execSha0Digest (s : State) : Host.Outcome State Fault Refusal := digestCommand false false s

/-- SHA1.DIGEST (R100). -/
def execSha1Digest (s : State) : Host.Outcome State Fault Refusal := digestCommand true false s

/-- SHA0.HEX (R101). -/
def execSha0Hex (s : State) : Host.Outcome State Fault Refusal := digestCommand false true s

/-- SHA1.HEX (R102). -/
def execSha1Hex (s : State) : Host.Outcome State Fault Refusal := digestCommand true true s

end Sys2Proof.Machine
end

