-- ==== Sys2Proof/Machine/Dispatch.lean ====
section
/-! DEFINITION. One arm per command: the CMD write of that command reaches its unit. -/

namespace Sys2Proof.Machine

def exec (i : Instr) (s : State) : Host.Outcome State Fault Refusal :=
  match i with
  | .sha0Digest => Sys2Proof.Machine.execSha0Digest s
  | .sha1Digest => Sys2Proof.Machine.execSha1Digest s
  | .sha0Hex => Sys2Proof.Machine.execSha0Hex s
  | .sha1Hex => Sys2Proof.Machine.execSha1Hex s
  | .rc4New ctx => Sys2Proof.Machine.execRc4New ctx s
  | .rc4Xform ctx => Sys2Proof.Machine.execRc4Xform ctx s
  | .rc4Free ctx => Sys2Proof.Machine.execRc4Free ctx s

end Sys2Proof.Machine
end

