-- ==== Sys2Proof/Machine/HostPort.lean ====
section
/-! DEFINITION. What reaches the block from outside: register reads and writes (R31 to R47, R56), HOST accesses to
host memory (R68), reset (R142, R144), and the choice of what moves next (R9, R152). -/

namespace Sys2Proof.Machine

/-- The host-visible registers (R31). -/
inductive Reg where
  | deCmd
  | deStatus
  | deSrcLo
  | deSrcHi
  | deLenLo
  | deLenHi
  | deDstLo
  | deDstHi
  | deH (n : Fin 5)
  | cuCmd
  | cuStatus
  | cuSrcLo
  | cuSrcHi
  | cuLenLo
  | cuLenHi
  | cuDstLo
  | cuDstHi
  | cuValid
  | engId
  | engParam
  deriving DecidableEq, Repr

/-- The offset table of R31, DE's parameter registers and CMD. -/
def regMapDe : List (BitVec 9 × Reg) :=
  [(0x000, .deCmd), (0x004, .deStatus), (0x008, .deSrcLo), (0x00C, .deSrcHi), (0x010, .deLenLo),
    (0x014, .deLenHi), (0x018, .deDstLo), (0x01C, .deDstHi)]

/-- The offset table of R31, the digest words. -/
def regMapH : List (BitVec 9 × Reg) :=
  [(0x020, .deH 0), (0x024, .deH 1), (0x028, .deH 2), (0x02C, .deH 3), (0x030, .deH 4)]

/-- The offset table of R31, CU. -/
def regMapCu : List (BitVec 9 × Reg) :=
  [(0x100, .cuCmd), (0x104, .cuStatus), (0x108, .cuSrcLo), (0x10C, .cuSrcHi), (0x110, .cuLenLo),
    (0x114, .cuLenHi), (0x118, .cuDstLo), (0x11C, .cuDstHi), (0x120, .cuValid)]

/-- The offset table of R31, the constants. -/
def regMapEng : List (BitVec 9 × Reg) := [(0x1F0, .engId), (0x1F4, .engParam)]

/-- The offset table of R31. -/
def regMap : List (BitVec 9 × Reg) := regMapDe ++ regMapH ++ regMapCu ++ regMapEng

/-- The register at an offset; none at an unmapped one (R31, R32). -/
def regAt (off : BitVec 9) : Option Reg := regMap.lookup off

/-- A register access must be 32 bits wide at a multiple of 4 (R56). -/
def goodAccess (off : BitVec 9) (bits : Nat) : Bool := decide (bits = 32) && decide (off.toNat % 4 = 0)

/-- What a register reads (R32 to R46). CMD registers read 0 (R33, R39); DE_Hn while DE is busy reads any value
(R38), and so does the running context's bit of CU_VALID (R44). -/
def readReg (s : State) : Reg → Word
  | .deCmd => 0
  | .deStatus => s.de.status.view
  | .deSrcLo => s.de.regs.srcLo
  | .deSrcHi => s.de.regs.srcHi
  | .deLenLo => s.de.regs.lenLo
  | .deLenHi => s.de.regs.lenHi
  | .deDstLo => s.de.regs.dstLo
  | .deDstHi => s.de.regs.dstHi
  | .deH n => if s.de.status.busy then Config.freeWord .host s.hostDraws else s.de.h.word n.val
  | .cuCmd => 0
  | .cuStatus => s.cu.status.view
  | .cuSrcLo => s.cu.regs.srcLo
  | .cuSrcHi => s.cu.regs.srcHi
  | .cuLenLo => s.cu.regs.lenLo
  | .cuLenHi => s.cu.regs.lenHi
  | .cuDstLo => s.cu.regs.dstLo
  | .cuDstHi => s.cu.regs.dstHi
  | .cuValid => s.cu.validView (nCtx s.params) (Config.freeBit .host s.hostDraws)
  | .engId => s.params.engId
  | .engParam => Sys2Proof.Machine.engParam s.params

/-- What an offset reads: an unmapped one reads 0 (R32). -/
def readOffset (s : State) (off : BitVec 9) : Word := ((regAt off).map (readReg s)).getD 0

/-- A HOST register read changes nothing of the block; it advances the port's draws. -/
def hostRead (s : State) (off : BitVec 9) : State := { s with rdata := readOffset s off, hostDraws := s.hostDraws + 1 }

/-- DE with its parameter registers replaced; a command in progress keeps its latched operands (R25). -/
def setDeRegs (s : State) (r : ParamRegs) : State := { s with de := { s.de with regs := r } }

/-- CU with its parameter registers replaced; a command in progress keeps its latched operands (R30). -/
def setCuRegs (s : State) (r : ParamRegs) : State := { s with cu := { s.cu with regs := r } }

/-- An illegal word written to DE_CMD: dropped while BUSY (R49), else accepted and ended at once with ILLEGAL_CMD
(R77, R94). -/
def illegalDigest (s : State) : State :=
  let st := s.de.status
  { s with de := { s.de with status := if st.busy then st.drop else st.accept.raise .illegalCmd } }

/-- An illegal word written to CU_CMD: dropped while BUSY (R49), else accepted and ended at once with ILLEGAL_CMD
(R77, R113). -/
def illegalCipher (s : State) : State :=
  let st := s.cu.status
  { s with cu := { s.cu with status := if st.busy then st.drop else st.accept.raise .illegalCmd } }

/-- A word written to the CMD register of a unit (R33, R39): decoded and run, or illegal. -/
def writeCmd (u : Engine) (v : Word) (s : State) : Host.Outcome State Fault Refusal :=
  match decode u v with
  | .ok i => exec i s
  | .error _ =>
    match u with
    | .de => .next (illegalDigest s)
    | .cu => .next (illegalCipher s)

/-- A write to a register (R31 to R47); the read-only ones ignore it. -/
def writeReg (s : State) (v : Word) : Reg → Host.Outcome State Fault Refusal
  | .deCmd => writeCmd .de v s
  | .deStatus => .next { s with de := { s.de with status := s.de.status.hostWrite v } }
  | .deSrcLo => .next (setDeRegs s { s.de.regs with srcLo := v })
  | .deSrcHi => .next (setDeRegs s { s.de.regs with srcHi := v })
  | .deLenLo => .next (setDeRegs s { s.de.regs with lenLo := v })
  | .deLenHi => .next (setDeRegs s { s.de.regs with lenHi := v })
  | .deDstLo => .next (setDeRegs s { s.de.regs with dstLo := v })
  | .deDstHi => .next (setDeRegs s { s.de.regs with dstHi := v })
  | .deH _ => .next s
  | .cuCmd => writeCmd .cu v s
  | .cuStatus => .next { s with cu := { s.cu with status := s.cu.status.hostWrite v } }
  | .cuSrcLo => .next (setCuRegs s { s.cu.regs with srcLo := v })
  | .cuSrcHi => .next (setCuRegs s { s.cu.regs with srcHi := v })
  | .cuLenLo => .next (setCuRegs s { s.cu.regs with lenLo := v })
  | .cuLenHi => .next (setCuRegs s { s.cu.regs with lenHi := v })
  | .cuDstLo => .next (setCuRegs s { s.cu.regs with dstLo := v })
  | .cuDstHi => .next (setCuRegs s { s.cu.regs with dstHi := v })
  | .cuValid => .next s
  | .engId => .next s
  | .engParam => .next s

/-- A write at an offset: an unmapped one has no effect (R32). -/
def writeOffset (s : State) (off : BitVec 9) (v : Word) : Host.Outcome State Fault Refusal :=
  match regAt off with
  | some r => writeReg s v r
  | none => .next s

/-- A HOST read of a byte of host memory. It must not be a byte a command in progress writes (R68). -/
def hostMemRead (s : State) (a : Addr) : Host.Outcome State Fault Refusal :=
  if rangesHold s.devices a.toNat then .refused .deviceRange
  else if rangesHold (s.de.writes ++ s.cu.writes) a.toNat then .fault .hostContract
  else .next { s with rdata := (s.mem.read a.toNat).setWidth 32 }

/-- A HOST write of a byte of host memory. It must not be a byte a command in progress reads or writes (R68). -/
def hostMemWrite (s : State) (a : Addr) (b : Byte) : Host.Outcome State Fault Refusal :=
  if rangesHold s.devices a.toNat then .refused .deviceRange
  else if rangesHold (s.de.reads ++ s.de.writes ++ s.cu.reads ++ s.cu.writes) a.toNat then .fault .hostContract
  else .next { s with mem := s.mem.write a.toNat b }

/-- DE when reset is asserted (R142): its registers and internal state at their reset values; the model's own
fields stay, and the draws for an abandoned hex string are counted. -/
def resetDigest (d : DigestEngine) : DigestEngine :=
  { DigestEngine.reset with
    pace := d.pace
    bus := d.bus
    draws := if d.status.busy ∧ d.hex then d.draws + hexBytes else d.draws }

/-- The output of RC4.XFORM is at stake: it is the command in progress. -/
def CipherUnit.transforming (u : CipherUnit) : Bool := u.status.busy && decide (u.op = .xform)

/-- CU when reset is asserted (R142): as for DE; every context invalid. -/
def resetCipher (u : CipherUnit) : CipherUnit :=
  { CipherUnit.reset with
    pace := u.pace
    bus := u.bus
    draws := if u.transforming then u.draws + u.len.toNat else u.draws }

/-- Host memory when reset is asserted (R144): each byte of the output range of a command abandoned holds any
value; every other byte is unchanged. -/
def resetMem (s : State) : Memory :=
  let m1 := if s.de.status.busy ∧ s.de.hex then s.mem.scramble .de s.de.draws s.de.dst hexBytes else s.mem
  if s.cu.transforming then m1.scramble .cu s.cu.draws s.cu.dst s.cu.len.toNat else m1

/-- Reset is asserted (R142, R144, R145): the block is as after reset; the platform, its parameters and what the
outside does next stay. -/
def resetBlock (s : State) : State := { s with de := resetDigest s.de, cu := resetCipher s.cu, mem := resetMem s }

/-- One event happens (R9). -/
def perform (e : Event) (s : State) : Host.Outcome State Fault Refusal :=
  match e with
  | .regRead off bits => if goodAccess off bits then .next (hostRead s off) else .fault .hostBadAccess
  | .regWrite off bits v => if goodAccess off bits then writeOffset s off v else .fault .hostBadAccess
  | .memRead a => hostMemRead s a
  | .memWrite a b => hostMemWrite s a b
  | .deTurn => .next (digestTurn s)
  | .cuTurn => .next (cipherTurn s)
  | .reset => .next (resetBlock s)

/-- With nothing waiting outside, a unit with a command in progress takes its step, DE before CU (R152: weak
fairness; DESIGN CHOICE, log entry 2); with both idle nothing changes (R141). -/
def idleTurn (s : State) : State := if s.de.status.busy then digestTurn s else cipherTurn s

/-- The offset of a unit's CMD register (R31, R71). -/
def cmdOffset : Engine → BitVec 9
  | .de => 0x000
  | .cu => 0x100

/-- The event that writes a word to a unit's CMD register (R71). -/
def cmdWrite (u : Engine) (v : Word) : Event := .regWrite (cmdOffset u) 32 v

end Sys2Proof.Machine
end

