-- ==== Sys2Proof/Machine/Step.lean ====
section
/-! DEFINITION. One step of the machine: the next thing outside the units' own rules happens, or, with nothing
waiting, a busy unit takes its step. The block fetches no instructions (R19, R70): a command reaches it as a
write of a CMD register. -/

namespace Sys2Proof.Machine

/-- One step (R9). -/
def step (s : State) : Host.Outcome State Fault Refusal :=
  match s.inputs with
  | [] => .next (idleTurn s)
  | e :: es => perform e { s with inputs := es }

/-- The state with the HOST's write of a command word next: the write of the opcode table word to the CMD register
of its unit (R71; log entries 14 and 15). A number that is no 32-bit word places nothing. -/
def State.withFetchWord (s : State) (nbits w : Nat) : State :=
  match tableWord nbits w with
  | none => s
  | some v => { s with inputs := cmdWrite (tableEngine v) v :: s.inputs }

end Sys2Proof.Machine
end

