-- ==== Sys2Proof/Safety.lean ====
section
/-! DEFINITION. What counts as a safe run (R134), when a command executes normally (R94, R113, R63), and the
invariants of the machine (R28, R34, R68), in the terms the statements use. -/

namespace Sys2Proof.Machine

/-- No host fault and no refusal within `n` steps (R134: "no host fault recorded"). -/
def State.safeFor (s : State) (n : Nat) : Prop := ∃ t, Host.Core.run Sys2Proof.core n s = .next t

/-- The platform answers the next `n` memory accesses of a unit without a bus error (R63). -/
abbrev quiet (bus : List Bool) (n : Nat) : Prop := ∀ k < n, bus.getD k false = false

/-- A buffer of `n` bytes, `n` at least 1, ends at or below address 2^64 - 1 (R124). -/
abbrev fits (base : Addr) (n : Nat) : Prop := base.toNat + n ≤ 2 ^ 64

/-- An address is none of the `n` bytes of a buffer. -/
abbrev outside (base : Addr) (n a : Nat) : Prop := ∀ k < n, a ≠ byteAddr base k

/-- Every address outside the `n` bytes of a buffer reads as before. -/
def sameOutside (m m' : Memory) (base : Addr) (n : Nat) : Prop := ∀ a, outside base n a → m'.read a = m.read a

/-- Input and output of RC4.XFORM are equal or disjoint (R117). -/
abbrev placed (src dst : Addr) (n : Nat) : Prop :=
  src = dst ∨ src.toNat + n ≤ dst.toNat ∨ dst.toNat + n ≤ src.toNat

/-- The STATUS of a command that completed without error (R50); OVR is as before acceptance (R48). -/
def Status.succeeded (st : Status) : Status := { busy := false, done := true, err := false, ovr := st.ovr, errCode := 0 }

/-- The STATUS of a command that ended with an error (R50); OVR is as before acceptance (R48). -/
def Status.failed (st : Status) (e : ErrCode) : Status :=
  { busy := false, done := false, err := true, ovr := st.ovr, errCode := e.code }

/-- The STATUS of a command in progress (R48); OVR is as before acceptance. -/
def Status.inProgress (st : Status) : Status := { busy := true, done := false, err := false, ovr := st.ovr, errCode := 0 }

/-- DE is idle and a digest command with this HEX bit passes every check of R94, covers no device (R60), and keeps
the host contract with CU's command in progress (R68). -/
structure DigestAccepted (hex : Bool) (s : State) : Prop where
  idle : s.de.status.busy = false
  length : s.de.regs.len.toNat ≤ maxMsgLen
  source : 0 < s.de.regs.len.toNat → fits s.de.regs.src s.de.regs.len.toNat
  dest : hex = true → fits s.de.regs.dst hexBytes
  ordinary : rangesMeet (digestReads s.de.regs.src s.de.regs.len ++ digestWrites hex s.de.regs.dst) s.devices = false
  contract : breaksContract (digestReads s.de.regs.src s.de.regs.len) (digestWrites hex s.de.regs.dst)
    s.cu.reads s.cu.writes = false

/-- The four digest commands with their variant V and their HEX bit (R75). -/
def digestForms : List (Instr × Bool × Bool) :=
  [(.sha0Digest, false, false), (.sha1Digest, true, false), (.sha0Hex, false, true), (.sha1Hex, true, true)]

/-- The three cipher commands on a context with their operation codes (R76). -/
def cipherForms (c : Nat) : List (Instr × CipherOp) :=
  [(.rc4New c, .new), (.rc4Xform c, .xform), (.rc4Free c, .free)]

/-- The offsets of the twelve parameter registers (R31). -/
def paramOffsets : List (BitVec 9) :=
  [0x008, 0x00C, 0x010, 0x014, 0x018, 0x01C, 0x108, 0x10C, 0x110, 0x114, 0x118, 0x11C]

/-- The offsets of the read-only registers without a writable field (R31). -/
def readOnlyOffsets : List (BitVec 9) := [0x020, 0x024, 0x028, 0x02C, 0x030, 0x120, 0x1F0, 0x1F4]

/-- The offsets of the two CMD and the two STATUS registers (R31). -/
def commandOffsets : List (BitVec 9) := [0x000, 0x004, 0x100, 0x104]

/-- A register access the block performs: 32 bits wide, at a multiple of 4 (R56). -/
abbrev aligned (off : BitVec 9) : Prop := off.toNat % 4 = 0

/-- An offset with no register (R31, R32). -/
abbrev unmapped (off : BitVec 9) : Prop := off ∉ paramOffsets ∧ off ∉ readOnlyOffsets ∧ off ∉ commandOffsets

/-- How many memory accesses a digest command makes (R95). -/
def digestAccesses (hex : Bool) (len : Addr) : Nat := len.toNat + (if hex then hexBytes else 0)

/-- An address is a byte of one of the ranges. -/
abbrev covered (rs : List Range) (a : Nat) : Prop := ∃ r ∈ rs, r.base ≤ a ∧ a < r.base + r.size

/-- The message a digest command reads, as it stands (R95). -/
def message (s : State) : List Byte := s.mem.slice s.de.regs.src 0 s.de.regs.len.toNat

/-- CU is idle and a cipher command on context `c` covers no device (R60) and keeps the host contract with DE's
command in progress (R68); the context exists (R113). -/
structure CipherAccepted (op : CipherOp) (c : Nat) (s : State) : Prop where
  idle : s.cu.status.busy = false
  exist : c < nCtx s.params
  ordinary : rangesMeet (cipherReads op s.cu.regs.src s.cu.regs.len ++ cipherWrites op s.cu.regs.dst s.cu.regs.len)
    s.devices = false
  contract : breaksContract (cipherReads op s.cu.regs.src s.cu.regs.len)
    (cipherWrites op s.cu.regs.dst s.cu.regs.len) s.de.reads s.de.writes = false

/-- RC4.NEW on context `c` passes every check of R113. -/
structure NewAccepted (c : Nat) (s : State) : Prop extends CipherAccepted .new c s where
  fresh : (s.cu.context c).valid = false
  keyed : 0 < s.cu.regs.len.toNat
  source : fits s.cu.regs.src (keyUsed s.cu.regs.len)

/-- RC4.XFORM of at least one byte on context `c` passes every check of R113. -/
structure XformAccepted (c : Nat) (s : State) : Prop extends CipherAccepted .xform c s where
  live : (s.cu.context c).valid = true
  some : 0 < s.cu.regs.len.toNat
  source : fits s.cu.regs.src s.cu.regs.len.toNat
  dest : fits s.cu.regs.dst s.cu.regs.len.toNat
  place : placed s.cu.regs.src s.cu.regs.dst s.cu.regs.len.toNat

/-- STATUS is consistent (R34, R48, R50, R124): DONE and ERR are never both 1 and are 0 while BUSY; ERRCODE is 0
exactly when ERR = 0, and else a code of R124. -/
structure Status.Ok (st : Status) : Prop where
  running : st.busy = true → st.done = false ∧ st.err = false
  exclusive : ¬ (st.done = true ∧ st.err = true)
  noError : st.err = false → st.errCode = 0
  someError : st.err = true → ∃ e : ErrCode, st.errCode = e.code

/-- Each byte value occurs exactly once (R28). -/
def Permutation (b : Sbox) : Prop := ∀ v : Byte, ∃ k, sboxAt b k = v ∧ ∀ k', sboxAt b k' = v → k' = k

/-- The contexts (R26, R28): a valid context exists and holds a permutation; so does the context whose key schedule
is running; the command in progress names an existing context. -/
structure ContextsOk (s : State) : Prop where
  perm : ∀ c < 32, (s.cu.context c).valid = true → c < nCtx s.params ∧ Permutation (s.cu.context c).sbox
  running : s.cu.status.busy = true → s.cu.ctx.toNat < nCtx s.params
  keying : s.cu.status.busy = true → s.cu.op = .new → s.cu.phase = .schedule →
    Permutation (s.cu.context s.cu.ctx.toNat).sbox

/-- A range lies in host memory. -/
def Range.inMemory (r : Range) : Prop := 0 < r.size → r.base + r.size ≤ 2 ^ 64

/-- The buffers of the commands in progress lie in host memory (R124) and keep the contract between the units
(R68). -/
structure BuffersOk (s : State) : Prop where
  inMemory : ∀ r ∈ s.de.reads ++ s.de.writes ++ s.cu.reads ++ s.cu.writes, r.inMemory
  contract : breaksContract s.de.reads s.de.writes s.cu.reads s.cu.writes = false

/-- While a digest command is in progress, DE's sequencer stands before the hex string only for a command with HEX
(R95, R97). -/
def HexPhaseOk (s : State) : Prop := s.de.status.busy = true → s.de.phase = .hex → s.de.hex = true

/-- Both units are idle (R141). -/
abbrev State.idle (s : State) : Prop := s.de.status.busy = false ∧ s.cu.status.busy = false

end Sys2Proof.Machine
end

