-- ==== Sys2Proof/Certificates/Slice0/Obligations.lean ====
section
/-! DEFINITION. The statements for the provers, from the numbered rules of the spec. -/

open Sys2Proof Sys2Proof.Machine

/-- Every command decodes from its own word on its own unit's CMD register (R71, R72, R73, R75, R76). -/
def Obligations.DecodeOfEncodeIsTheCommand : Prop :=
  ∀ i : Instr, i.wellFormed = true → decode i.engine (encode i) = .ok i

/-- A word the decoder accepts is the word of the command it gives: no word has two meanings on one unit and no bit
of a word is dropped (R72, R73, R75, R76). -/
def Obligations.EncodeOfDecodeIsTheWord : Prop :=
  ∀ (u : Engine) (v : Word) (i : Instr), decode u v = .ok i → i.engine = u ∧ i.wellFormed = true ∧ encode i = v

/-- R77, whole: which words are illegal, what an illegal word does to an idle unit, and that a context number of
N_CTX or more is no illegal word but fails with CTX_RANGE. -/
def Obligations.IllegalWordsEndWithIllegalCmd : Prop :=
  (∀ v : Word, (∀ i, decode .de v ≠ .ok i) ↔ (v.extractLsb' 0 4 ≠ 0b0001 ∨ v.extractLsb' 6 26 ≠ 0)) ∧
  (∀ v : Word, (∀ i, decode .cu v ≠ .ok i) ↔
    ((v.extractLsb' 0 4 ≠ 0b0001 ∧ v.extractLsb' 0 4 ≠ 0b0010 ∧ v.extractLsb' 0 4 ≠ 0b0011) ∨
      v.extractLsb' 4 4 ≠ 0 ∨ v.extractLsb' 16 16 ≠ 0)) ∧
  (∀ (s : State) (v : Word) (rest : List Event), (∀ i, decode .de v ≠ .ok i) → s.de.status.busy = false →
    step { s with inputs := cmdWrite .de v :: rest } =
      .next { s with inputs := rest, de := { s.de with status := s.de.status.failed .illegalCmd } }) ∧
  (∀ (s : State) (v : Word) (rest : List Event), (∀ i, decode .cu v ≠ .ok i) → s.cu.status.busy = false →
    step { s with inputs := cmdWrite .cu v :: rest } =
      .next { s with inputs := rest, cu := { s.cu with status := s.cu.status.failed .illegalCmd } }) ∧
  (∀ (s : State) (c : Nat), s.cu.status.busy = false → nCtx s.params ≤ c → ∀ f ∈ cipherForms c,
    exec f.1 s = .next { s with cu := { s.cu with status := s.cu.status.failed .ctxRange } })

/-- Words written out from the tables of R75 and R76 decode to the commands they stand for. -/
def Obligations.OpcodeTableWordsDecode : Prop :=
  decode .de 0x00000001 = .ok .sha0Digest ∧ decode .de 0x00000011 = .ok .sha1Digest ∧
  decode .de 0x00000021 = .ok .sha0Hex ∧ decode .de 0x00000031 = .ok .sha1Hex ∧
  decode .cu 0x00000001 = .ok (.rc4New 0) ∧ decode .cu 0x00000302 = .ok (.rc4Xform 3) ∧
  decode .cu 0x0000ff03 = .ok (.rc4Free 255)

/-- A step whose next input is the write of a word to a CMD register runs the command the word decodes to, on the
state without that input (R71, R70). -/
def Obligations.StepRunsTheCommandWritten : Prop :=
  ∀ (s : State) (u : Engine) (v : Word) (i : Instr) (rest : List Event), decode u v = .ok i →
    step { s with inputs := cmdWrite u v :: rest } = exec i { s with inputs := rest }

/-- R49, whole: any word written to the CMD register of a busy unit sets OVR and changes nothing else. -/
def Obligations.BusyUnitDropsTheWrite : Prop :=
  (∀ (s : State) (v : Word) (rest : List Event), s.de.status.busy = true →
    step { s with inputs := cmdWrite .de v :: rest } =
      .next { s with inputs := rest, de := { s.de with status := { s.de.status with ovr := true } } }) ∧
  (∀ (s : State) (v : Word) (rest : List Event), s.cu.status.busy = true →
    step { s with inputs := cmdWrite .cu v :: rest } =
      .next { s with inputs := rest, cu := { s.cu with status := { s.cu.status with ovr := true } } })

/-- SHA0.DIGEST and SHA1.DIGEST complete with the digest of the message in H (R99, R100, R95, R90), and write no
memory (R97). -/
def Obligations.DigestCommandsLeaveTheDigest : Prop :=
  ∀ s : State, DigestAccepted false s → s.de.pace = .whole → quiet s.de.bus (digestAccesses false s.de.regs.len) →
    ∀ f ∈ [(Instr.sha0Digest, false), (Instr.sha1Digest, true)], ∃ t, exec f.1 s = .next t ∧
      t.de.status = s.de.status.succeeded ∧ t.de.h = sha f.2 (message s) ∧ t.mem = s.mem ∧
      t.de.bus = s.de.bus.drop (digestAccesses false s.de.regs.len)

/-- SHA0.HEX and SHA1.HEX complete with the digest of the message, as it stood before, in H and its hex string at
dst..dst+39 (R101, R102, R95, R91, R97). -/
def Obligations.HexCommandsWriteTheHexString : Prop :=
  ∀ s : State, DigestAccepted true s → s.de.pace = .whole → quiet s.de.bus (digestAccesses true s.de.regs.len) →
    ∀ f ∈ [(Instr.sha0Hex, false), (Instr.sha1Hex, true)], ∃ t, exec f.1 s = .next t ∧
      t.de.status = s.de.status.succeeded ∧ t.de.h = sha f.2 (message s) ∧
      (∀ k < hexBytes, t.mem.read (s.de.regs.dst.toNat + k) = hexByte (sha f.2 (message s)) k) ∧
      sameOutside s.mem t.mem s.de.regs.dst hexBytes ∧
      t.de.bus = s.de.bus.drop (digestAccesses true s.de.regs.len)

/-- The acceptance checks of a digest command, in the order of R94; a failed check changes nothing but DE_STATUS
(R94, R128, R131). -/
def Obligations.DigestChecksReportInOrder : Prop :=
  ∀ (s : State), s.de.status.busy = false → ∀ f ∈ digestForms,
    (maxMsgLen < s.de.regs.len.toNat →
      exec f.1 s = .next { s with de := { s.de with status := s.de.status.failed .length } }) ∧
    (s.de.regs.len.toNat ≤ maxMsgLen → 0 < s.de.regs.len.toNat → ¬ fits s.de.regs.src s.de.regs.len.toNat →
      exec f.1 s = .next { s with de := { s.de with status := s.de.status.failed .range } }) ∧
    (s.de.regs.len.toNat ≤ maxMsgLen → (0 < s.de.regs.len.toNat → fits s.de.regs.src s.de.regs.len.toNat) →
      f.2.2 = true → ¬ fits s.de.regs.dst hexBytes →
      exec f.1 s = .next { s with de := { s.de with status := s.de.status.failed .range } })

/-- A bus error on any access of a digest command ends it with BUS; only bytes of a .HEX command's destination may
change in memory (R63, R125, R131). -/
def Obligations.DigestBusErrorEndsTheCommand : Prop :=
  ∀ (s : State), ∀ f ∈ digestForms, DigestAccepted f.2.2 s → s.de.pace = .whole →
    ¬ quiet s.de.bus (digestAccesses f.2.2 s.de.regs.len) → ∃ t, exec f.1 s = .next t ∧
      t.de.status = s.de.status.failed .bus ∧ (f.2.2 = false → t.mem = s.mem) ∧
      sameOutside s.mem t.mem s.de.regs.dst hexBytes

/-- The frame of SHA0.DIGEST, SHA1.DIGEST, SHA0.HEX and SHA1.HEX on every path to a next state: CU, the parameters,
the platform, the waiting inputs and the host's read data are unchanged, DE's parameter registers are unchanged, OVR
changes only when the write is dropped, and every byte of memory reads as before except, for .HEX, dst..dst+39. -/
def Obligations.DigestCommandsFrame : Prop :=
  ∀ (s t : State), ∀ f ∈ digestForms, exec f.1 s = .next t →
    t.cu = s.cu ∧ t.params = s.params ∧ t.devices = s.devices ∧ t.inputs = s.inputs ∧ t.rdata = s.rdata ∧
    t.hostDraws = s.hostDraws ∧ t.de.regs = s.de.regs ∧ t.de.pace = s.de.pace ∧
    (s.de.status.busy = false → t.de.status.ovr = s.de.status.ovr) ∧
    (f.2.2 = false → ∀ a, t.mem.read a = s.mem.read a) ∧
    (f.2.2 = true → sameOutside s.mem t.mem s.de.regs.dst hexBytes)

/-- A digest command that passes every check at a pace of turns is in progress: BUSY = 1, DONE, ERR and ERRCODE 0, OVR
kept, its operands latched from the parameter registers (R48, R25); memory and CU are untouched so far. -/
def Obligations.AcceptedDigestCommandIsInProgress : Prop :=
  ∀ (s : State), ∀ f ∈ digestForms, DigestAccepted f.2.2 s → s.de.pace = .stepped → ∃ t, exec f.1 s = .next t ∧
    t.de.status = s.de.status.inProgress ∧ t.de.src = s.de.regs.src ∧ t.de.len = s.de.regs.len ∧
    t.de.dst = s.de.regs.dst ∧ t.de.v = f.2.1 ∧ t.de.hex = f.2.2 ∧ t.de.regs = s.de.regs ∧ t.mem = s.mem ∧ t.cu = s.cu

/-- DE's turns take a started digest command, after some number of them, to the very state in which the whole command
ends, and there it is no longer in progress; and so does the machine, in as many steps that each take a turn of DE
(R67, R51, R95). -/
def Obligations.DigestTurnsReachTheWholeCommand : Prop :=
  ∀ (s : State) (v hex : Bool), ∃ n,
    digestTurn^[n] { s with de := digestStart v hex s.de } = digestRun { s with de := digestStart v hex s.de } ∧
    (digestRun { s with de := digestStart v hex s.de }).de.status.busy = false ∧
    ∀ rest : List Event,
      Host.Core.run Sys2Proof.core n
          { s with de := digestStart v hex s.de, inputs := List.replicate n .deTurn ++ rest } =
        .next { digestRun { s with de := digestStart v hex s.de } with inputs := rest }

/-- A digest command's result in DE depends on no byte of memory outside its message (R96). -/
def Obligations.DigestReadsOnlyItsMessage : Prop :=
  ∀ (s : State) (m : Memory), (∀ k < s.de.regs.len.toNat,
      m.read (byteAddr s.de.regs.src k) = s.mem.read (byteAddr s.de.regs.src k)) →
    ∀ f ∈ digestForms, ∀ t t', exec f.1 s = .next t → exec f.1 { s with mem := m } = .next t' → t'.de = t.de

/-- A digest command reads no state of CU: whatever CU holds, DE and memory end the same (R2). -/
def Obligations.DigestIgnoresTheCipherUnit : Prop :=
  ∀ (s : State) (u : CipherUnit), ∀ f ∈ digestForms, ∀ t t', exec f.1 s = .next t →
    exec f.1 { s with cu := u } = .next t' → t'.de = t.de ∧ t'.mem = t.mem

/-- RC4.NEW completes with the context keyed by the key bytes used: the scheduled S-box, cursors 0, VALID 1 (R120,
R114, R103, R104, R105), and writes no memory. -/
def Obligations.NewKeysTheContext : Prop :=
  ∀ (s : State) (c : Nat), NewAccepted c s → s.cu.pace = .whole → quiet s.cu.bus (keyUsed s.cu.regs.len) →
    ∃ t, exec (.rc4New c) s = .next t ∧ t.cu.status = s.cu.status.succeeded ∧
      t.cu.context c = keyedContext (s.mem.slice s.cu.regs.src 0 (keyUsed s.cu.regs.len)) s.cu.regs.len.toNat ∧
      t.mem = s.mem

/-- RC4.XFORM completes with each output byte the input byte, as it stood at acceptance, XOR its keystream byte, and
the context advanced by len steps (R121, R115, R117). -/
def Obligations.XformXorsTheKeystream : Prop :=
  ∀ (s : State) (c : Nat), XformAccepted c s → s.cu.pace = .whole → quiet s.cu.bus (2 * s.cu.regs.len.toNat) →
    ∃ t, exec (.rc4Xform c) s = .next t ∧ t.cu.status = s.cu.status.succeeded ∧
      (∀ k < s.cu.regs.len.toNat, t.mem.read (s.cu.regs.dst.toNat + k) =
        s.mem.read (s.cu.regs.src.toNat + k) ^^^ (keystream (s.cu.context c) s.cu.regs.len.toNat).getD k 0) ∧
      t.cu.context c = ksAdvance (s.cu.context c) s.cu.regs.len.toNat ∧
      sameOutside s.mem t.mem s.cu.regs.dst s.cu.regs.len.toNat

/-- RC4.XFORM of 0 bytes on a valid context completes at once, at any addresses and any pace: CU_STATUS is that of a
command completed without error, the operands are copied as for every accepted command, and nothing else changes, no
S-box and no cursor (R112, R113, R30, R50). -/
def Obligations.EmptyXformChangesNoContext : Prop :=
  ∀ (s : State) (c : Nat), s.cu.status.busy = false → c < nCtx s.params → (s.cu.context c).valid = true →
    s.cu.regs.len = 0 →
    exec (.rc4Xform c) s = .next { s with cu := { s.cu with
      status := s.cu.status.succeeded
      ctx := BitVec.ofNat 8 c
      op := .xform
      src := s.cu.regs.src
      len := 0
      dst := s.cu.regs.dst } }

/-- RC4.FREE completes on every existing context, valid or not, and leaves it invalid (R116, R122). -/
def Obligations.FreeInvalidatesTheContext : Prop :=
  ∀ (s : State) (c : Nat), s.cu.status.busy = false → c < nCtx s.params → s.cu.pace = .whole →
    ∃ t, exec (.rc4Free c) s = .next t ∧ t.cu.status = s.cu.status.succeeded ∧ (t.cu.context c).valid = false ∧
      t.mem = s.mem

/-- The acceptance checks of the cipher commands on an existing context, in the order of R113; a failed check changes
nothing but CU_STATUS (R113, R128, R132). -/
def Obligations.CipherChecksReportInOrder : Prop :=
  ∀ (s : State) (c : Nat), s.cu.status.busy = false → c < nCtx s.params →
    ((s.cu.context c).valid = true →
      exec (.rc4New c) s = .next { s with cu := { s.cu with status := s.cu.status.failed .ctxActive } }) ∧
    ((s.cu.context c).valid = false → s.cu.regs.len = 0 →
      exec (.rc4New c) s = .next { s with cu := { s.cu with status := s.cu.status.failed .keyEmpty } }) ∧
    ((s.cu.context c).valid = false → 0 < s.cu.regs.len.toNat → ¬ fits s.cu.regs.src (keyUsed s.cu.regs.len) →
      exec (.rc4New c) s = .next { s with cu := { s.cu with status := s.cu.status.failed .range } }) ∧
    ((s.cu.context c).valid = false →
      exec (.rc4Xform c) s = .next { s with cu := { s.cu with status := s.cu.status.failed .ctxInvalid } }) ∧
    ((s.cu.context c).valid = true → 0 < s.cu.regs.len.toNat →
      (¬ fits s.cu.regs.src s.cu.regs.len.toNat ∨ ¬ fits s.cu.regs.dst s.cu.regs.len.toNat) →
      exec (.rc4Xform c) s = .next { s with cu := { s.cu with status := s.cu.status.failed .range } }) ∧
    ((s.cu.context c).valid = true → 0 < s.cu.regs.len.toNat → fits s.cu.regs.src s.cu.regs.len.toNat →
      fits s.cu.regs.dst s.cu.regs.len.toNat → ¬ placed s.cu.regs.src s.cu.regs.dst s.cu.regs.len.toNat →
      exec (.rc4Xform c) s = .next { s with cu := { s.cu with status := s.cu.status.failed .overlap } })

/-- A bus error on any access of RC4.NEW or RC4.XFORM ends the command with BUS and leaves the context invalid; only
bytes of the output of RC4.XFORM may change in memory (R63, R125, R132). -/
def Obligations.CipherBusErrorInvalidatesTheContext : Prop :=
  ∀ (s : State) (c : Nat), s.cu.pace = .whole →
    (NewAccepted c s → ¬ quiet s.cu.bus (keyUsed s.cu.regs.len) → ∃ t, exec (.rc4New c) s = .next t ∧
      t.cu.status = s.cu.status.failed .bus ∧ (t.cu.context c).valid = false ∧ t.mem = s.mem) ∧
    (XformAccepted c s → ¬ quiet s.cu.bus (2 * s.cu.regs.len.toNat) → ∃ t, exec (.rc4Xform c) s = .next t ∧
      t.cu.status = s.cu.status.failed .bus ∧ (t.cu.context c).valid = false ∧
      sameOutside s.mem t.mem s.cu.regs.dst s.cu.regs.len.toNat)

/-- The frame of RC4.NEW, RC4.XFORM and RC4.FREE on every path to a next state: DE, the parameters, the platform, the
waiting inputs and the host's read data are unchanged, CU's parameter registers are unchanged, OVR changes only when the
write is dropped, every other context is unchanged, and every byte of memory reads as before except, for RC4.XFORM,
dst..dst+len-1 (R118). -/
def Obligations.CipherCommandsFrame : Prop :=
  ∀ (s t : State) (c : Nat), ∀ f ∈ cipherForms c, exec f.1 s = .next t →
    t.de = s.de ∧ t.params = s.params ∧ t.devices = s.devices ∧ t.inputs = s.inputs ∧ t.rdata = s.rdata ∧
    t.hostDraws = s.hostDraws ∧ t.cu.regs = s.cu.regs ∧ t.cu.pace = s.cu.pace ∧
    (s.cu.status.busy = false → t.cu.status.ovr = s.cu.status.ovr) ∧
    (∀ c' < 32, c' ≠ c → t.cu.context c' = s.cu.context c') ∧
    (f.2 ≠ .xform → ∀ a, t.mem.read a = s.mem.read a) ∧
    (f.2 = .xform → sameOutside s.mem t.mem s.cu.regs.dst s.cu.regs.len.toNat)

/-- A cipher command that passes every check at a pace of turns is in progress: BUSY = 1, DONE, ERR and ERRCODE 0, OVR
kept, its operands latched (R48, R30); memory, DE and every context are untouched so far. -/
def Obligations.AcceptedCipherCommandIsInProgress : Prop :=
  ∀ (s : State) (c : Nat), s.cu.pace = .stepped → ∀ f ∈ cipherForms c,
    ((f.2 = .new → NewAccepted c s) ∧ (f.2 = .xform → XformAccepted c s) ∧ (f.2 = .free → CipherAccepted .free c s)) →
    ∃ t, exec f.1 s = .next t ∧ t.cu.status = s.cu.status.inProgress ∧ t.cu.ctx.toNat = c ∧ t.cu.op = f.2 ∧
      t.cu.src = s.cu.regs.src ∧ t.cu.len = s.cu.regs.len ∧ t.cu.dst = s.cu.regs.dst ∧ t.cu.regs = s.cu.regs ∧
      t.cu.ctxs = s.cu.ctxs ∧ t.mem = s.mem ∧ t.de = s.de

/-- CU's turns take a started cipher command, after some number of them, to the very state in which the whole command
ends, and there it is no longer in progress; and so does the machine, in as many steps that each take a turn of CU
(R67, R51, R114, R115, R116). -/
def Obligations.CipherTurnsReachTheWholeCommand : Prop :=
  ∀ (s : State) (op : CipherOp) (c : Nat), ∃ n,
    cipherTurn^[n] { s with cu := cipherStart op c s.cu } = cipherRun { s with cu := cipherStart op c s.cu } ∧
    (cipherRun { s with cu := cipherStart op c s.cu }).cu.status.busy = false ∧
    ∀ rest : List Event,
      Host.Core.run Sys2Proof.core n
          { s with cu := cipherStart op c s.cu, inputs := List.replicate n .cuTurn ++ rest } =
        .next { cipherRun { s with cu := cipherStart op c s.cu } with inputs := rest }

/-- RC4.NEW reads only its first min(len, 256) key bytes: CU ends the same whatever the rest of memory holds (R114,
R106). -/
def Obligations.NewReadsOnlyTheKeyBytesUsed : Prop :=
  ∀ (s : State) (c : Nat) (m : Memory), (∀ k < keyUsed s.cu.regs.len,
      m.read (byteAddr s.cu.regs.src k) = s.mem.read (byteAddr s.cu.regs.src k)) →
    ∀ t t', exec (.rc4New c) s = .next t → exec (.rc4New c) { s with mem := m } = .next t' → t'.cu = t.cu

/-- A cipher command reads no state of DE: whatever DE holds, CU and memory end the same (R2). -/
def Obligations.CipherIgnoresTheDigestEngine : Prop :=
  ∀ (s : State) (d : DigestEngine) (c : Nat), ∀ f ∈ cipherForms c, ∀ t t', exec f.1 s = .next t →
    exec f.1 { s with de := d } = .next t' → t'.cu = t.cu ∧ t'.mem = t.mem

/-- R47, whole, for both units: what a host write to STATUS clears, field by field. -/
def Obligations.StatusWriteClearsTheWrittenFlags : Prop :=
  (∀ (s : State) (v : Word) (rest : List Event),
    step { s with inputs := .regWrite 0x004 32 v :: rest } = .next { s with inputs := rest, de := { s.de with
      status := { busy := s.de.status.busy, done := s.de.status.done && !v.getLsbD 1,
                  err := s.de.status.err && !v.getLsbD 2, ovr := s.de.status.ovr && !v.getLsbD 3,
                  errCode := if v.getLsbD 2 then 0 else s.de.status.errCode } } }) ∧
  (∀ (s : State) (v : Word) (rest : List Event),
    step { s with inputs := .regWrite 0x104 32 v :: rest } = .next { s with inputs := rest, cu := { s.cu with
      status := { busy := s.cu.status.busy, done := s.cu.status.done && !v.getLsbD 1,
                  err := s.cu.status.err && !v.getLsbD 2, ovr := s.cu.status.ovr && !v.getLsbD 3,
                  errCode := if v.getLsbD 2 then 0 else s.cu.status.errCode } } })

/-- The layout of STATUS as both units read it: BUSY, DONE, ERR, OVR in bits 0 to 3, ERRCODE in bits 11:8, the reserved
bits 0 (R34, R40). -/
def Obligations.StatusReadsItsFields : Prop :=
  ∀ s : State, ∀ p ∈ [((0x004 : BitVec 9), s.de.status), ((0x104 : BitVec 9), s.cu.status)],
    (readOffset s p.1).getLsbD 0 = p.2.busy ∧ (readOffset s p.1).getLsbD 1 = p.2.done ∧
    (readOffset s p.1).getLsbD 2 = p.2.err ∧ (readOffset s p.1).getLsbD 3 = p.2.ovr ∧
    (readOffset s p.1).extractLsb' 4 4 = 0 ∧ (readOffset s p.1).extractLsb' 8 4 = p.2.errCode ∧
    (readOffset s p.1).extractLsb' 12 20 = 0

/-- A parameter register holds what was last written to it, and the write changes no other register's reading, no
latched operand, no context and no memory, also while a command is in progress (R35 to R37, R41 to R43, R148). A read
that R38 or R44 leaves at any value is among the other readings: that it gives the same after the write as it would
have before is the model's choice, since only a register read advances the port's counter (log entries 6 and 17). -/
def Obligations.ParameterRegistersReadBack : Prop :=
  ∀ (s : State) (v : Word) (rest : List Event), ∀ o ∈ paramOffsets, ∃ t,
    step { s with inputs := .regWrite o 32 v :: rest } = .next t ∧ readOffset t o = v ∧
    (∀ o', o' ≠ o → readOffset t o' = readOffset s o') ∧ t.mem = s.mem ∧ t.inputs = rest ∧
    t.de.src = s.de.src ∧ t.de.len = s.de.len ∧ t.de.dst = s.de.dst ∧ t.de.v = s.de.v ∧ t.de.hex = s.de.hex ∧
    t.de.h = s.de.h ∧ t.cu.src = s.cu.src ∧ t.cu.len = s.cu.len ∧ t.cu.dst = s.cu.dst ∧ t.cu.ctx = s.cu.ctx ∧
    t.cu.op = s.cu.op ∧ t.cu.ctxs = s.cu.ctxs

/-- A read-only register and an unmapped offset ignore writes, and an unmapped offset reads 0 (R31, R32). -/
def Obligations.ReadOnlyAndUnmappedOffsetsIgnoreWrites : Prop :=
  (∀ (s : State) (o : BitVec 9) (v : Word) (rest : List Event), aligned o → (o ∈ readOnlyOffsets ∨ unmapped o) →
    step { s with inputs := .regWrite o 32 v :: rest } = .next { s with inputs := rest }) ∧
  (∀ (s : State) (o : BitVec 9), unmapped o → readOffset s o = 0)

/-- R56: a register access of another width or not at a multiple of 4 is the fault HostBadAccess. -/
def Obligations.BadRegisterAccessFaults : Prop :=
  ∀ (s : State) (o : BitVec 9) (bits : Nat) (v : Word) (rest : List Event), (bits ≠ 32 ∨ ¬ aligned o) →
    step { s with inputs := .regRead o bits :: rest } = .fault .hostBadAccess ∧
    step { s with inputs := .regWrite o bits v :: rest } = .fault .hostBadAccess

/-- A whole aligned register read returns the register and changes neither unit nor memory; a CMD register reads 0
(R57, R33, R39). -/
def Obligations.RegisterReadReturnsTheRegister : Prop :=
  ∀ (s : State) (o : BitVec 9) (rest : List Event), aligned o → ∃ t,
    step { s with inputs := .regRead o 32 :: rest } = .next t ∧ t.rdata = readOffset s o ∧ t.de = s.de ∧ t.cu = s.cu ∧
    t.mem = s.mem ∧ t.params = s.params ∧ t.inputs = rest ∧ (o = 0x000 ∨ o = 0x100 → t.rdata = 0)

/-- R45 and R46, whole: what ENG_ID and ENG_PARAM read, and that a write to either is ignored. -/
def Obligations.ConstantRegistersRead : Prop :=
  (∀ (s : State) (v : Word) (rest : List Event), ∀ o ∈ [(0x1F0 : BitVec 9), 0x1F4],
    step { s with inputs := .regWrite o 32 v :: rest } = .next { s with inputs := rest }) ∧
  ∀ s : State, readOffset s 0x1F0 = s.params.engId ∧
    ((readOffset s 0x1F4).extractLsb' 0 6).toNat = nCtx s.params ∧ (readOffset s 0x1F4).extractLsb' 6 2 = 0 ∧
    (readOffset s 0x1F4).getLsbD 8 = true ∧ (readOffset s 0x1F4).getLsbD 9 = true ∧
    (readOffset s 0x1F4).getLsbD 10 = true ∧ (readOffset s 0x1F4).extractLsb' 11 21 = 0

/-- CU_VALID: bit c reads VALID[c] for an existing context that no command in progress names, and bits N_CTX..31 read 0
(R44). The bit of the running command's context is a free value: nothing is said of it. -/
def Obligations.CuValidReadsTheContexts : Prop :=
  ∀ (s : State) (c : Nat), c < 32 →
    (nCtx s.params ≤ c → (readOffset s 0x120).getLsbD c = false) ∧
    (c < nCtx s.params → (s.cu.status.busy = false ∨ c ≠ s.cu.ctx.toNat) →
      (readOffset s 0x120).getLsbD c = (s.cu.context c).valid)

/-- DE_H0..DE_H4 read H[0]..H[4] while DE is idle (R38). -/
def Obligations.DigestRegistersReadTheAccumulators : Prop :=
  ∀ s : State, s.de.status.busy = false →
    readOffset s 0x020 = s.de.h.h0 ∧ readOffset s 0x024 = s.de.h.h1 ∧ readOffset s 0x028 = s.de.h.h2 ∧
    readOffset s 0x02C = s.de.h.h3 ∧ readOffset s 0x030 = s.de.h.h4

/-- The host contract (R68): a HOST write to a byte a command in progress reads or writes, a HOST read of a byte it
writes, and a command that starts while the other unit's command in progress uses its bytes, are the fault
HostContract. The model's choices in it: the ranges count whole, and the units' conflict is the fault when the second
command is accepted, whatever its pace (log entry 12); a command's checks come before its ranges are judged, and the
refusal for a device before the contract, also for HOST accesses (log entries 11 and 13). -/
def Obligations.HostContractViolationsFault : Prop :=
  (∀ (s : State) (a : Addr) (b : Byte) (rest : List Event), ¬ covered s.devices a.toNat →
    covered (s.de.reads ++ s.de.writes ++ s.cu.reads ++ s.cu.writes) a.toNat →
    step { s with inputs := .memWrite a b :: rest } = .fault .hostContract) ∧
  (∀ (s : State) (a : Addr) (rest : List Event), ¬ covered s.devices a.toNat →
    covered (s.de.writes ++ s.cu.writes) a.toNat →
    step { s with inputs := .memRead a :: rest } = .fault .hostContract) ∧
  (∀ (s : State), ∀ f ∈ digestForms, s.de.status.busy = false → digestCheck f.2.2 s.de.regs = none →
    rangesMeet (digestReads s.de.regs.src s.de.regs.len ++ digestWrites f.2.2 s.de.regs.dst) s.devices = false →
    (∃ a, covered (digestWrites f.2.2 s.de.regs.dst) a ∧ covered (s.cu.reads ++ s.cu.writes) a ∨
      covered (digestReads s.de.regs.src s.de.regs.len) a ∧ covered s.cu.writes a) →
    exec f.1 s = .fault .hostContract) ∧
  (∀ (s : State) (c : Nat), ∀ f ∈ cipherForms c, s.cu.status.busy = false →
    cipherCheck f.2 c (nCtx s.params) s.cu = none → 0 < s.cu.regs.len.toNat →
    rangesMeet (cipherReads f.2 s.cu.regs.src s.cu.regs.len ++ cipherWrites f.2 s.cu.regs.dst s.cu.regs.len)
      s.devices = false →
    (∃ a, covered (cipherWrites f.2 s.cu.regs.dst s.cu.regs.len) a ∧ covered (s.de.reads ++ s.de.writes) a ∨
      covered (cipherReads f.2 s.cu.regs.src s.cu.regs.len) a ∧ covered s.de.writes a) →
    exec f.1 s = .fault .hostContract)

/-- A command that passes its checks and names a byte of a device range is refused (R60, R48, R128). That the ranges of
the devices are data of the state, and that of a key only the bytes used count, is log entry 11; that a command which fails a check is not refused, and that the
refusal comes before the host contract, so that this holds also where the contract is broken, is log entry 13. -/
def Obligations.DeviceRangesAreRefused : Prop :=
  (∀ (s : State), ∀ f ∈ digestForms, s.de.status.busy = false → digestCheck f.2.2 s.de.regs = none →
    (∃ a, covered (digestReads s.de.regs.src s.de.regs.len ++ digestWrites f.2.2 s.de.regs.dst) a ∧
      covered s.devices a) → exec f.1 s = .refused .deviceRange) ∧
  (∀ (s : State) (c : Nat), ∀ f ∈ cipherForms c, s.cu.status.busy = false →
    cipherCheck f.2 c (nCtx s.params) s.cu = none →
    (∃ a, covered (cipherReads f.2 s.cu.regs.src s.cu.regs.len ++ cipherWrites f.2 s.cu.regs.dst s.cu.regs.len) a ∧
      covered s.devices a) → exec f.1 s = .refused .deviceRange)

/-- A HOST write of a byte no command in progress uses reads back, leaves every other byte alone, and touches neither
unit; a HOST read of a byte no command in progress writes returns it (R60, R52). -/
def Obligations.HostMemoryAccessesReachMemory : Prop :=
  (∀ (s : State) (a : Addr) (b : Byte) (rest : List Event), ¬ covered s.devices a.toNat →
    ¬ covered (s.de.reads ++ s.de.writes ++ s.cu.reads ++ s.cu.writes) a.toNat → ∃ t,
    step { s with inputs := .memWrite a b :: rest } = .next t ∧ t.mem.read a.toNat = b ∧
    (∀ a', a' ≠ a.toNat → t.mem.read a' = s.mem.read a') ∧ t.de = s.de ∧ t.cu = s.cu ∧ t.inputs = rest) ∧
  (∀ (s : State) (a : Addr) (rest : List Event), ¬ covered s.devices a.toNat →
    ¬ covered (s.de.writes ++ s.cu.writes) a.toNat → ∃ t,
    step { s with inputs := .memRead a :: rest } = .next t ∧ t.rdata.toNat = (s.mem.read a.toNat).toNat ∧
    t.mem = s.mem ∧ t.de = s.de ∧ t.cu = s.cu ∧ t.inputs = rest)

/-- Reset, whenever asserted: both units idle with every flag 0, every parameter register and accumulator word 0, every
context invalid; the parameters stay, and of memory only the output range of a command abandoned may change (R142,
R144, R145). -/
def Obligations.ResetRestoresTheBlock : Prop :=
  ∀ (s : State) (rest : List Event), ∃ t, step { s with inputs := .reset :: rest } = .next t ∧ t.inputs = rest ∧
    t.de.status = Status.reset ∧ t.cu.status = Status.reset ∧
    (∀ o ∈ paramOffsets, readOffset t o = 0) ∧
    t.de.h = { h0 := 0, h1 := 0, h2 := 0, h3 := 0, h4 := 0 } ∧
    (∀ c < 32, (t.cu.context c).valid = false) ∧ t.params = s.params ∧
    (∀ a, (s.de.status.busy = true → s.de.hex = true → outside s.de.dst hexBytes a) →
      (s.cu.status.busy = true → s.cu.op = .xform → outside s.cu.dst s.cu.len.toNat a) →
      t.mem.read a = s.mem.read a)

/-- The machine right after reset: every offset but the two constants reads 0 (R31, R142, R145). -/
def Obligations.ResetStateReadsZero : Prop :=
  ∀ o : BitVec 9, o ≠ 0x1F0 → o ≠ 0x1F4 → readOffset State.reset o = 0

/-- Every step keeps STATUS of both units consistent: DONE and ERR never both 1, both 0 while BUSY, ERRCODE 0 exactly
when ERR = 0 and else a code of R124 (R34, R47, R48, R50). -/
def Obligations.StepKeepsStatusConsistent : Prop :=
  ∀ s t : State, s.de.status.Ok → s.cu.status.Ok → step s = .next t → t.de.status.Ok ∧ t.cu.status.Ok

/-- Every step keeps host memory in its canonical form. The form is the model's own (log entry 7). -/
def Obligations.StepKeepsMemoryCanonical : Prop :=
  ∀ s t : State, s.mem.wf → step s = .next t → t.mem.wf

/-- Every step keeps the contexts sound: a valid context exists and holds a permutation of 0..255 (R28, R26). -/
def Obligations.StepKeepsContextsPermutations : Prop :=
  ∀ s t : State, ContextsOk s → step s = .next t → ContextsOk t

/-- Every step keeps the buffers of the commands in progress inside memory and, between the units, free of the
conflicts the host contract forbids (R124 RANGE, R68). -/
def Obligations.StepKeepsBuffersSound : Prop :=
  ∀ s t : State, BuffersOk s → step s = .next t → BuffersOk t

/-- The state after reset meets the five invariants. -/
def Obligations.ResetMeetsTheInvariants : Prop :=
  State.reset.de.status.Ok ∧ State.reset.cu.status.Ok ∧ State.reset.mem.wf ∧ ContextsOk State.reset ∧
    BuffersOk State.reset ∧ HexPhaseOk State.reset

/-- R141: a unit with BUSY = 0 does nothing at its turn; with both units idle and nothing waiting a step changes
nothing; and all state of an idle unit survives every step, whatever the other unit and the HOST do in it, that is
neither reset nor a register write at the unit's own offsets. -/
def Obligations.IdleUnitsDoNothing : Prop :=
  (∀ (s : State) (rest : List Event), s.de.status.busy = false →
    step { s with inputs := .deTurn :: rest } = .next { s with inputs := rest }) ∧
  (∀ (s : State) (rest : List Event), s.cu.status.busy = false →
    step { s with inputs := .cuTurn :: rest } = .next { s with inputs := rest }) ∧
  (∀ s : State, s.idle → s.inputs = [] → step s = .next s) ∧
  (∀ s t : State, s.de.status.busy = false → s.inputs.head? ≠ some .reset →
    (∀ o bits v, s.inputs.head? = some (.regWrite o bits v) → 0x100 ≤ o) → step s = .next t → t.de = s.de) ∧
  ∀ s t : State, s.cu.status.busy = false → s.inputs.head? ≠ some .reset →
    (∀ o bits v, s.inputs.head? = some (.regWrite o bits v) → o < 0x100) → step s = .next t → t.cu = s.cu

/-- From every state in which nothing waits outside, finitely many steps end every command in progress (R51, R152). -/
def Obligations.EveryCommandInProgressCompletes : Prop :=
  ∀ s : State, s.inputs = [] → ∃ n t, Host.Core.run Sys2Proof.core n s = .next t ∧ t.idle

/-- The padded message is a whole number of blocks, N of them (R82). -/
def Obligations.PaddedMessageIsWholeBlocks : Prop :=
  ∀ m : List Byte, (pad m).length = 64 * blockCount m.length

/-- The bytes DE makes for the padding are those of the padded message (R83). -/
def Obligations.PaddingBytesAreThePadding : Prop :=
  ∀ (m : List Byte) (p : Nat), p < 64 * blockCount m.length →
    (pad m).getD p 0 = if p < m.length then m.getD p 0 else padByte m.length p

/-- The length field holds the exact bit length, most significant byte first (R84). -/
def Obligations.LengthFieldHoldsTheBitLength : Prop :=
  ∀ n : Nat, n ≤ maxMsgLen → (lengthField n).foldl (fun x b => 256 * x + b.toNat) 0 = 8 * n

/-- The key schedule gives a permutation, for every key (R28, R103, R104). -/
def Obligations.KeyScheduleGivesAPermutation : Prop :=
  ∀ (key : List Byte) (len : Nat), Permutation (ksa key len).1

/-- A key of any length gives the S-box of its periodic extension to 256 bytes, and only its first 256 bytes matter
(R106). -/
def Obligations.KeyScheduleIsPeriodic : Prop :=
  ∀ key : List Byte, 0 < key.length →
    ksa key key.length = ksa ((List.range 256).map (keyByte key key.length)) 256 ∧
    ksa key key.length = ksa (key.take 256) key.length

/-- Transforming two pieces on one context gives the same bytes as transforming their concatenation (R111). -/
def Obligations.TransformSplitsAnywhere : Prop :=
  ∀ (x : Context) (m1 m2 : List Byte),
    transform x (m1 ++ m2) = transform x m1 ++ transform (ksAdvance x m1.length) m2

/-- Transforming the output of a transform from the same context state gives back the input (R109). -/
def Obligations.TransformInvertsItself : Prop :=
  ∀ (x : Context) (m : List Byte), transform x (transform x m) = m

/-- The hex string tells the digest: two digests with one string are equal (R91). -/
def Obligations.HexStringTellsTheDigest : Prop :=
  ∀ h h' : Hash, hexString h = hexString h' → h = h'

/-- A turn of a unit is a step of the machine: the events deTurn and cuTurn run the unit's next step, busy or not, and
with nothing waiting the step is DE's while DE is busy and CU's otherwise (R9, R152). The order of the units with
nothing waiting is the model's choice (log entry 2). -/
def Obligations.TurnsRunTheUnits : Prop :=
  (∀ (s : State) (rest : List Event),
    step { s with inputs := .deTurn :: rest } = .next (digestTurn { s with inputs := rest })) ∧
  (∀ (s : State) (rest : List Event),
    step { s with inputs := .cuTurn :: rest } = .next (cipherTurn { s with inputs := rest })) ∧
  (∀ s : State, s.inputs = [] → s.de.status.busy = true → step s = .next (digestTurn s)) ∧
  ∀ s : State, s.inputs = [] → s.de.status.busy = false → step s = .next (cipherTurn s)

/-- The frame of a turn of DE, busy or idle (R2, R19, R25, R141): CU, the parameters, the platform, the other inputs and
the host's read data are unchanged; DE's parameter registers, pace, OVR and latched operands are unchanged; every byte
of memory reads as before outside the 40 bytes from the latched destination, and every byte without HEX, in states
whose hex string is written for HEX only, the invariant of StepKeepsHexPhase. -/
def Obligations.DigestTurnFrame : Prop :=
  ∀ (s : State) (rest : List Event), ∃ t, step { s with inputs := .deTurn :: rest } = .next t ∧
    t.cu = s.cu ∧ t.params = s.params ∧ t.devices = s.devices ∧ t.inputs = rest ∧ t.rdata = s.rdata ∧
    t.hostDraws = s.hostDraws ∧ t.de.regs = s.de.regs ∧ t.de.pace = s.de.pace ∧
    t.de.status.ovr = s.de.status.ovr ∧ t.de.src = s.de.src ∧ t.de.len = s.de.len ∧ t.de.dst = s.de.dst ∧
    t.de.v = s.de.v ∧ t.de.hex = s.de.hex ∧ sameOutside s.mem t.mem s.de.dst hexBytes ∧
    (HexPhaseOk s → s.de.hex = false → ∀ a, t.mem.read a = s.mem.read a)

/-- The frame of a turn of CU, busy or idle (R2, R19, R30, R118, R141): DE, the parameters, the platform, the other
inputs and the host's read data are unchanged; CU's parameter registers, pace, OVR and latched operands are unchanged;
every context in another slot than the latched number's is unchanged (a number below 32 is its own slot); every byte of
memory reads as before for RC4.NEW and RC4.FREE, and outside the output for RC4.XFORM. -/
def Obligations.CipherTurnFrame : Prop :=
  ∀ (s : State) (rest : List Event), ∃ t, step { s with inputs := .cuTurn :: rest } = .next t ∧
    t.de = s.de ∧ t.params = s.params ∧ t.devices = s.devices ∧ t.inputs = rest ∧ t.rdata = s.rdata ∧
    t.hostDraws = s.hostDraws ∧ t.cu.regs = s.cu.regs ∧ t.cu.pace = s.cu.pace ∧
    t.cu.status.ovr = s.cu.status.ovr ∧ t.cu.ctx = s.cu.ctx ∧ t.cu.op = s.cu.op ∧ t.cu.src = s.cu.src ∧
    t.cu.len = s.cu.len ∧ t.cu.dst = s.cu.dst ∧
    (∀ c, slot c ≠ slot s.cu.ctx.toNat → t.cu.context c = s.cu.context c) ∧
    (s.cu.op ≠ .xform → ∀ a, t.mem.read a = s.mem.read a) ∧
    (s.cu.op = .xform → sameOutside s.mem t.mem s.cu.dst s.cu.len.toNat)

/-- Every step keeps the sequencer of a DE in progress from standing before the hex string of a command without HEX
(R95, R97). -/
def Obligations.StepKeepsHexPhase : Prop :=
  ∀ s t : State, HexPhaseOk s → step s = .next t → HexPhaseOk t
end

