-- ==== Sys2Proof/Laws/Memory.lean ====
section
/-! SUPPORT. The laws of memory: a read after a write, that every memory operation keeps the canonical form, and
what the runs of reads and writes do, with and without bus errors. -/

namespace Sys2Proof.Machine

theorem byteAddr_lt (base : Addr) (k : Nat) : byteAddr base k < 2 ^ 64 := Nat.mod_lt _ (by decide)

/-- A buffer that fits never wraps (R124). -/
theorem byteAddr_fits {base : Addr} {n k : Nat} (h : fits base n) (hk : k < n) : byteAddr base k = base.toNat + k :=
  Nat.mod_eq_of_lt (by simp only [fits] at h; omega)

theorem read_erase_same (m : Memory) (a : Nat) : (m.erase a).read a = Memory.unlisted := by
  induction m with
  | nil => rfl
  | cons c m ih =>
    obtain ⟨k, v⟩ := c
    by_cases h : k = a
    · simpa [Memory.erase, List.filter_cons, h] using ih
    · simpa [Memory.erase, List.filter_cons, h, Memory.read] using ih

theorem read_erase_other (m : Memory) {a c : Nat} (h : c ≠ a) : (m.erase a).read c = m.read c := by
  induction m with
  | nil => rfl
  | cons p m ih =>
    obtain ⟨k, v⟩ := p
    by_cases hk : k = a
    · subst hk
      simpa [Memory.erase, List.filter_cons, Memory.read, Ne.symm h] using ih
    · by_cases hc : k = c
      · simp [Memory.erase, Memory.read, hc, h]
      · simpa [Memory.erase, List.filter_cons, hk, Memory.read, hc] using ih

theorem read_insert_other (m : Memory) {a c : Nat} (b : Byte) (h : c ≠ a) : (m.insert a b).read c = m.read c := by
  induction m with
  | nil => simp [Memory.insert, Memory.read, Ne.symm h]
  | cons p m ih =>
    obtain ⟨k, v⟩ := p
    by_cases hk : a < k
    · simp [Memory.insert, hk, Memory.read, Ne.symm h]
    · simp [Memory.insert, hk, Memory.read, ih]

theorem read_insert_same (m : Memory) {a : Nat} (b : Byte) (h : ∀ c ∈ m, c.1 ≠ a) : (m.insert a b).read a = b := by
  induction m with
  | nil => simp [Memory.insert, Memory.read]
  | cons p m ih =>
    obtain ⟨k, v⟩ := p
    have hk : k ≠ a := h (k, v) (List.mem_cons_self)
    by_cases ha : a < k
    · simp [Memory.insert, ha, Memory.read]
    · simpa [Memory.insert, ha, Memory.read, hk] using ih (fun c hc => h c (List.mem_cons_of_mem _ hc))

theorem erase_key_ne (m : Memory) (a : Nat) : ∀ c ∈ m.erase a, c.1 ≠ a := by
  intro c hc
  simpa using (List.mem_filter.mp hc).2

/-- A read after a write to the same address gives the byte written. -/
@[simp] theorem read_write_same (m : Memory) (a : Nat) (b : Byte) : (m.write a b).read a = b := by
  by_cases h : b = Memory.unlisted
  · simp [Memory.write, h, read_erase_same]
  · simpa [Memory.write, h] using read_insert_same _ b (erase_key_ne m a)

/-- A write leaves every other address alone. -/
theorem read_write_other (m : Memory) {a c : Nat} (b : Byte) (h : c ≠ a) : (m.write a b).read c = m.read c := by
  by_cases hb : b = Memory.unlisted
  · simp [Memory.write, hb, read_erase_other m h]
  · simp [Memory.write, hb, read_insert_other _ b h, read_erase_other m h]

theorem erase_wf {m : Memory} (a : Nat) (h : m.wf) : (m.erase a).wf :=
  ⟨h.1.filter _, fun c hc => h.2 c (List.mem_filter.mp hc).1⟩

theorem mem_insert {m : Memory} {a : Nat} {b : Byte} {c : Host.Cell} (h : c ∈ m.insert a b) : c = (a, b) ∨ c ∈ m := by
  induction m with
  | nil => simpa [Memory.insert] using h
  | cons p m ih =>
    by_cases hp : a < p.1
    · simpa [Memory.insert, hp] using h
    · simp only [Memory.insert, hp, if_false, List.mem_cons] at h
      rcases h with h | h
      · exact .inr (by simp [h])
      · exact (ih h).imp_right (List.mem_cons_of_mem _)

theorem insert_wf {m : Memory} {a : Nat} {b : Byte} (h : m.wf) (hk : ∀ c ∈ m, c.1 ≠ a) (ha : a < 2 ^ 64)
    (hb : b ≠ Memory.unlisted) : (m.insert a b).wf := by
  refine ⟨?_, fun c hc => ?_⟩
  · induction m with
    | nil => simp [Memory.insert]
    | cons p m ih =>
      have hp := List.pairwise_cons.mp h.1
      by_cases hlt : a < p.1
      · simp only [Memory.insert, hlt, if_true]
        refine List.pairwise_cons.mpr ⟨fun c hc => ?_, h.1⟩
        rcases List.mem_cons.mp hc with rfl | hc
        · exact hlt
        · exact lt_trans hlt (hp.1 c hc)
      · simp only [Memory.insert, hlt, if_false]
        refine List.pairwise_cons.mpr ⟨fun c hc => ?_, ih ⟨hp.2, fun c hc => h.2 c (List.mem_cons_of_mem _ hc)⟩
          (fun c hc => hk c (List.mem_cons_of_mem _ hc))⟩
        rcases mem_insert hc with rfl | hc
        · exact lt_of_le_of_ne (Nat.le_of_not_lt hlt) (hk p List.mem_cons_self)
        · exact hp.1 c hc
  · rcases mem_insert hc with rfl | hc
    · exact ⟨ha, hb⟩
    · exact h.2 c hc

/-- A write keeps the canonical form. -/
theorem write_wf {m : Memory} {a : Nat} (b : Byte) (h : m.wf) (ha : a < 2 ^ 64) : (m.write a b).wf := by
  by_cases hb : b = Memory.unlisted
  · simpa [Memory.write, hb] using erase_wf a h
  · simpa [Memory.write, hb] using insert_wf (erase_wf a h) (erase_key_ne m a) ha hb

/-- A run of writes keeps the canonical form. -/
theorem writeRun_wf {m : Memory} (base : Addr) (k : Nat) (bs : List Byte) (h : m.wf) : (m.writeRun base k bs).wf := by
  induction bs generalizing m k with
  | nil => exact h
  | cons b bs ih => exact ih (k + 1) (write_wf b h (byteAddr_lt base k))

/-- Free bytes in a buffer keep the canonical form. -/
theorem scramble_wf {m : Memory} (use : FreeUse) (d : Nat) (base : Addr) (n : Nat) (h : m.wf) :
    (m.scramble use d base n).wf := by
  induction n with
  | zero => exact h
  | succ n ih => exact write_wf _ ih (byteAddr_lt base n)

/-- Reset memory is in canonical form. -/
theorem reset_mem_wf : State.reset.mem.wf := by decide

/-- A run of writes leaves every address outside it alone. -/
theorem writeRun_outside (m : Memory) (base : Addr) (k : Nat) (bs : List Byte) (a : Nat)
    (h : ∀ i, k ≤ i → i < k + bs.length → a ≠ byteAddr base i) : (m.writeRun base k bs).read a = m.read a := by
  induction bs generalizing m k with
  | nil => rfl
  | cons b bs ih =>
    simp only [Memory.writeRun]
    rw [ih _ (k + 1) (fun i h1 h2 => h i (by omega) (by simp only [List.length_cons]; omega))]
    exact read_write_other _ _ (h k le_rfl (by simp))

/-- Free bytes in a buffer leave every address outside it alone. -/
theorem scramble_outside (m : Memory) (use : FreeUse) (d : Nat) (base : Addr) (n : Nat) :
    sameOutside m (m.scramble use d base n) base n := by
  intro a h
  induction n with
  | zero => rfl
  | succ n ih =>
    rw [Memory.scramble, read_write_other _ _ (h n (Nat.lt_succ_self n)), ih (fun k hk => h k (by omega))]

theorem slice_length (m : Memory) (base : Addr) (k n : Nat) : (m.slice base k n).length = n := by
  induction n generalizing k with
  | zero => rfl
  | succ n ih => simp [Memory.slice, ih]

/-- Byte `i` of a buffer read from its byte `k` on. -/
theorem slice_getD (m : Memory) (base : Addr) (k n : Nat) {i : Nat} (h : i < n) (d : Byte) :
    (m.slice base k n).getD i d = m.read (byteAddr base (k + i)) := by
  induction n generalizing k i with
  | zero => exact absurd h (by omega)
  | succ n ih =>
    cases i with
    | zero => simp [Memory.slice]
    | succ i =>
      have := ih (k + 1) (i := i) (by omega)
      simp only [Memory.slice, List.getD_cons_succ, this]
      congr 2
      omega

/-- No bus error on the next `n + 1` accesses: none now, none on the `n` after. -/
theorem quiet_succ {bus : List Bool} {n : Nat} : quiet bus (n + 1) ↔ busError bus = false ∧ quiet bus.tail n := by
  cases bus with
  | nil => simp [quiet, busError]
  | cons b bus =>
    constructor
    · intro h
      exact ⟨by simpa [busError] using h 0 (by omega), fun k hk => by simpa using h (k + 1) (by omega)⟩
    · rintro ⟨h0, h⟩ k hk
      cases k with
      | zero => simpa [busError] using h0
      | succ k => simpa using h k (by omega)

/-- Without a bus error a run of reads gives the bytes of the buffer and uses one draw each. -/
theorem memFetch_quiet (m : Memory) {bus : List Bool} (base : Addr) (k : Nat) {n : Nat} (h : quiet bus n) :
    memFetch m bus base k n = (some (m.slice base k n), bus.drop n) := by
  induction n generalizing bus k with
  | zero => rfl
  | succ n ih =>
    obtain ⟨h0, h1⟩ := quiet_succ.mp h
    simp [memFetch, h0, ih (k + 1) h1, Memory.slice]

/-- With a bus error among its draws a run of reads gives no bytes. -/
theorem memFetch_error (m : Memory) {bus : List Bool} (base : Addr) (k : Nat) {n : Nat} (h : ¬ quiet bus n) :
    (memFetch m bus base k n).1 = none := by
  induction n generalizing bus k with
  | zero => exact absurd (fun k hk => absurd hk (by omega)) h
  | succ n ih =>
    by_cases h0 : busError bus = true
    · simp [memFetch, h0]
    · have h1 : ¬ quiet bus.tail n := fun h1 => h (quiet_succ.mpr ⟨by simpa using h0, h1⟩)
      simp [memFetch, h0, ih (k + 1) h1]

/-- Without a bus error a run of writes writes every byte and uses one draw each. -/
theorem memStore_quiet (m : Memory) {bus : List Bool} (base : Addr) (k : Nat) {bs : List Byte} (h : quiet bus bs.length) :
    memStore m bus base k bs = (some (m.writeRun base k bs), bus.drop bs.length) := by
  induction bs generalizing m bus k with
  | nil => rfl
  | cons b bs ih =>
    obtain ⟨h0, h1⟩ := quiet_succ.mp h
    simp [memStore, h0, ih _ (k + 1) h1, Memory.writeRun]

/-- A run of writes that meets no bus error is a run of writes. -/
theorem memStore_some {m m' : Memory} {bus bus' : List Bool} {base : Addr} {k : Nat} {bs : List Byte}
    (h : memStore m bus base k bs = (some m', bus')) : m' = m.writeRun base k bs := by
  induction bs generalizing m bus k with
  | nil =>
    simp only [memStore, Prod.mk.injEq, Option.some.injEq] at h
    exact h.1.symm
  | cons b bs ih =>
    unfold memStore at h
    split at h
    · simp at h
    · exact ih h

end Sys2Proof.Machine
end

