-- ==== Sys2Proof/Laws/State.lean ====
section
/-! SUPPORT. One lemma per field per named update, so that no later proof unfolds a record update. -/

namespace Sys2Proof.Machine

variable (st : Status) (u : CipherUnit) (s : State) (c : Nat) (x : Context) (e : ErrCode) (r : ParamRegs)

@[simp] theorem raise_busy : (st.raise e).busy = false := rfl
@[simp] theorem raise_done : (st.raise e).done = st.done := rfl
@[simp] theorem raise_err : (st.raise e).err = true := rfl
@[simp] theorem raise_ovr : (st.raise e).ovr = st.ovr := rfl
@[simp] theorem raise_errCode : (st.raise e).errCode = e.code := rfl

@[simp] theorem clearErr_busy : st.clearErr.busy = st.busy := rfl
@[simp] theorem clearErr_done : st.clearErr.done = st.done := rfl
@[simp] theorem clearErr_err : st.clearErr.err = false := rfl
@[simp] theorem clearErr_ovr : st.clearErr.ovr = st.ovr := rfl
@[simp] theorem clearErr_errCode : st.clearErr.errCode = 0 := rfl

@[simp] theorem accept_busy : st.accept.busy = st.busy := rfl
@[simp] theorem accept_done : st.accept.done = false := rfl
@[simp] theorem accept_err : st.accept.err = false := rfl
@[simp] theorem accept_ovr : st.accept.ovr = st.ovr := rfl
@[simp] theorem accept_errCode : st.accept.errCode = 0 := rfl

@[simp] theorem start_busy : st.start.busy = true := rfl
@[simp] theorem start_done : st.start.done = st.done := rfl
@[simp] theorem start_err : st.start.err = st.err := rfl
@[simp] theorem start_ovr : st.start.ovr = st.ovr := rfl
@[simp] theorem start_errCode : st.start.errCode = st.errCode := rfl

@[simp] theorem complete_busy : st.complete.busy = false := rfl
@[simp] theorem complete_done : st.complete.done = true := rfl
@[simp] theorem complete_err : st.complete.err = st.err := rfl
@[simp] theorem complete_ovr : st.complete.ovr = st.ovr := rfl
@[simp] theorem complete_errCode : st.complete.errCode = st.errCode := rfl

@[simp] theorem drop_busy : st.drop.busy = st.busy := rfl
@[simp] theorem drop_done : st.drop.done = st.done := rfl
@[simp] theorem drop_err : st.drop.err = st.err := rfl
@[simp] theorem drop_ovr : st.drop.ovr = true := rfl
@[simp] theorem drop_errCode : st.drop.errCode = st.errCode := rfl

@[simp] theorem setContext_status : (u.setContext c x).status = u.status := rfl
@[simp] theorem setContext_regs : (u.setContext c x).regs = u.regs := rfl
@[simp] theorem setContext_ctx : (u.setContext c x).ctx = u.ctx := rfl
@[simp] theorem setContext_op : (u.setContext c x).op = u.op := rfl
@[simp] theorem setContext_src : (u.setContext c x).src = u.src := rfl
@[simp] theorem setContext_len : (u.setContext c x).len = u.len := rfl
@[simp] theorem setContext_dst : (u.setContext c x).dst = u.dst := rfl
@[simp] theorem setContext_k : (u.setContext c x).k = u.k := rfl
@[simp] theorem setContext_x : (u.setContext c x).x = u.x := rfl
@[simp] theorem setContext_key : (u.setContext c x).key = u.key := rfl
@[simp] theorem setContext_n : (u.setContext c x).n = u.n := rfl
@[simp] theorem setContext_phase : (u.setContext c x).phase = u.phase := rfl
@[simp] theorem setContext_pace : (u.setContext c x).pace = u.pace := rfl
@[simp] theorem setContext_bus : (u.setContext c x).bus = u.bus := rfl
@[simp] theorem setContext_draws : (u.setContext c x).draws = u.draws := rfl

@[simp] theorem setCuBus_context (b : List Bool) : (setCuBus s b).cu.context c = s.cu.context c := rfl

@[simp] theorem setDeRegs_regs : (setDeRegs s r).de.regs = r := rfl
@[simp] theorem setDeRegs_status : (setDeRegs s r).de.status = s.de.status := rfl
@[simp] theorem setDeRegs_cu : (setDeRegs s r).cu = s.cu := rfl
@[simp] theorem setDeRegs_mem : (setDeRegs s r).mem = s.mem := rfl
@[simp] theorem setDeRegs_params : (setDeRegs s r).params = s.params := rfl
@[simp] theorem setDeRegs_inputs : (setDeRegs s r).inputs = s.inputs := rfl

@[simp] theorem setCuRegs_regs : (setCuRegs s r).cu.regs = r := rfl
@[simp] theorem setCuRegs_status : (setCuRegs s r).cu.status = s.cu.status := rfl
@[simp] theorem setCuRegs_de : (setCuRegs s r).de = s.de := rfl
@[simp] theorem setCuRegs_mem : (setCuRegs s r).mem = s.mem := rfl
@[simp] theorem setCuRegs_params : (setCuRegs s r).params = s.params := rfl
@[simp] theorem setCuRegs_inputs : (setCuRegs s r).inputs = s.inputs := rfl

variable (op : CipherOp)

@[simp] theorem cipherLatch_status : (cipherLatch op c u).status = u.status := rfl
@[simp] theorem cipherLatch_regs : (cipherLatch op c u).regs = u.regs := rfl
@[simp] theorem cipherLatch_ctxs : (cipherLatch op c u).ctxs = u.ctxs := rfl
@[simp] theorem cipherLatch_ctx : (cipherLatch op c u).ctx = BitVec.ofNat 8 c := rfl
@[simp] theorem cipherLatch_op : (cipherLatch op c u).op = op := rfl
@[simp] theorem cipherLatch_src : (cipherLatch op c u).src = u.regs.src := rfl
@[simp] theorem cipherLatch_len : (cipherLatch op c u).len = u.regs.len := rfl
@[simp] theorem cipherLatch_dst : (cipherLatch op c u).dst = u.regs.dst := rfl
@[simp] theorem cipherLatch_k : (cipherLatch op c u).k = u.k := rfl
@[simp] theorem cipherLatch_x : (cipherLatch op c u).x = u.x := rfl
@[simp] theorem cipherLatch_key : (cipherLatch op c u).key = u.key := rfl
@[simp] theorem cipherLatch_n : (cipherLatch op c u).n = u.n := rfl
@[simp] theorem cipherLatch_phase : (cipherLatch op c u).phase = u.phase := rfl
@[simp] theorem cipherLatch_pace : (cipherLatch op c u).pace = u.pace := rfl
@[simp] theorem cipherLatch_bus : (cipherLatch op c u).bus = u.bus := rfl
@[simp] theorem cipherLatch_draws : (cipherLatch op c u).draws = u.draws := rfl
@[simp] theorem cipherLatch_context (c' : Nat) : (cipherLatch op c u).context c' = u.context c' := rfl

@[simp] theorem cipherAtOnce_status : (cipherAtOnce op c u).status = u.status.accept.complete := rfl
@[simp] theorem cipherAtOnce_regs : (cipherAtOnce op c u).regs = u.regs := rfl
@[simp] theorem cipherAtOnce_ctxs : (cipherAtOnce op c u).ctxs = u.ctxs := rfl
@[simp] theorem cipherAtOnce_ctx : (cipherAtOnce op c u).ctx = BitVec.ofNat 8 c := rfl
@[simp] theorem cipherAtOnce_op : (cipherAtOnce op c u).op = op := rfl
@[simp] theorem cipherAtOnce_src : (cipherAtOnce op c u).src = u.regs.src := rfl
@[simp] theorem cipherAtOnce_len : (cipherAtOnce op c u).len = u.regs.len := rfl
@[simp] theorem cipherAtOnce_dst : (cipherAtOnce op c u).dst = u.regs.dst := rfl
@[simp] theorem cipherAtOnce_k : (cipherAtOnce op c u).k = u.k := rfl
@[simp] theorem cipherAtOnce_x : (cipherAtOnce op c u).x = u.x := rfl
@[simp] theorem cipherAtOnce_key : (cipherAtOnce op c u).key = u.key := rfl
@[simp] theorem cipherAtOnce_n : (cipherAtOnce op c u).n = u.n := rfl
@[simp] theorem cipherAtOnce_phase : (cipherAtOnce op c u).phase = u.phase := rfl
@[simp] theorem cipherAtOnce_pace : (cipherAtOnce op c u).pace = u.pace := rfl
@[simp] theorem cipherAtOnce_bus : (cipherAtOnce op c u).bus = u.bus := rfl
@[simp] theorem cipherAtOnce_draws : (cipherAtOnce op c u).draws = u.draws := rfl
@[simp] theorem cipherAtOnce_context (c' : Nat) : (cipherAtOnce op c u).context c' = u.context c' := rfl

@[simp] theorem cipherStart_status : (cipherStart op c u).status = u.status.accept.start := rfl
@[simp] theorem cipherStart_regs : (cipherStart op c u).regs = u.regs := rfl
@[simp] theorem cipherStart_ctxs : (cipherStart op c u).ctxs = u.ctxs := rfl
@[simp] theorem cipherStart_ctx : (cipherStart op c u).ctx = BitVec.ofNat 8 c := rfl
@[simp] theorem cipherStart_op : (cipherStart op c u).op = op := rfl
@[simp] theorem cipherStart_src : (cipherStart op c u).src = u.regs.src := rfl
@[simp] theorem cipherStart_len : (cipherStart op c u).len = u.regs.len := rfl
@[simp] theorem cipherStart_dst : (cipherStart op c u).dst = u.regs.dst := rfl
@[simp] theorem cipherStart_k : (cipherStart op c u).k = 0 := rfl
@[simp] theorem cipherStart_x : (cipherStart op c u).x = 0 := rfl
@[simp] theorem cipherStart_key : (cipherStart op c u).key = [] := rfl
@[simp] theorem cipherStart_n : (cipherStart op c u).n = 0 := rfl
@[simp] theorem cipherStart_phase : (cipherStart op c u).phase = .readKey := rfl
@[simp] theorem cipherStart_pace : (cipherStart op c u).pace = u.pace := rfl
@[simp] theorem cipherStart_bus : (cipherStart op c u).bus = u.bus := rfl
@[simp] theorem cipherStart_draws : (cipherStart op c u).draws = u.draws := rfl
@[simp] theorem cipherStart_context (c' : Nat) : (cipherStart op c u).context c' = u.context c' := rfl

@[simp] theorem context_setContext_same : (u.setContext c x).context c = x := by
  simp [CipherUnit.context, CipherUnit.setContext]

/-- Writing one context leaves every context of another slot alone. -/
theorem context_setContext_other {c' : Nat} (h : slot c' ≠ slot c) :
    (u.setContext c x).context c' = u.context c' := by
  have h' : (slot c).val ≠ (slot c').val := fun k => h (Fin.ext k.symm)
  simp only [CipherUnit.context, CipherUnit.setContext]
  exact Vector.getElem_set_ne _ _ h'

/-- A context number below 32 names its own slot. -/
theorem slot_val {c : Nat} (h : c < 32) : (slot c).val = c := Nat.mod_eq_of_lt h

/-- Two context numbers below 32 that differ name different slots. -/
theorem slot_ne {c c' : Nat} (h : c < 32) (h' : c' < 32) (hn : c' ≠ c) : slot c' ≠ slot c := fun k =>
  hn (by rw [← slot_val h, ← slot_val h', k])

/-- N_CTX is at most 32 (R8). -/
theorem nCtx_le (p : Params) : nCtx p ≤ 32 := by
  have := p.lastCtx.isLt
  simp only [nCtx]
  omega

/-- N_CTX is at least 1 (R8). -/
theorem nCtx_pos (p : Params) : 0 < nCtx p := Nat.succ_pos _

end Sys2Proof.Machine
end

