-- ==== Sys2Proof/Laws/Steps.lean ====
section
/-! SUPPORT. One lemma per field for each named step of the two units, true by rfl: later proofs rewrite with them and
do not unfold the steps. -/

namespace Sys2Proof.Machine

variable (s : State) (b : List Byte) (kb : List Byte) (bits : List Bool)

@[simp] theorem setDeBus_status : (setDeBus s bits).de.status = s.de.status := rfl
@[simp] theorem setDeBus_regs : (setDeBus s bits).de.regs = s.de.regs := rfl
@[simp] theorem setDeBus_h : (setDeBus s bits).de.h = s.de.h := rfl
@[simp] theorem setDeBus_work : (setDeBus s bits).de.work = s.de.work := rfl
@[simp] theorem setDeBus_sched : (setDeBus s bits).de.sched = s.de.sched := rfl
@[simp] theorem setDeBus_src : (setDeBus s bits).de.src = s.de.src := rfl
@[simp] theorem setDeBus_len : (setDeBus s bits).de.len = s.de.len := rfl
@[simp] theorem setDeBus_dst : (setDeBus s bits).de.dst = s.de.dst := rfl
@[simp] theorem setDeBus_v : (setDeBus s bits).de.v = s.de.v := rfl
@[simp] theorem setDeBus_hex : (setDeBus s bits).de.hex = s.de.hex := rfl
@[simp] theorem setDeBus_p : (setDeBus s bits).de.p = s.de.p := rfl
@[simp] theorem setDeBus_blk : (setDeBus s bits).de.blk = s.de.blk := rfl
@[simp] theorem setDeBus_t : (setDeBus s bits).de.t = s.de.t := rfl
@[simp] theorem setDeBus_phase : (setDeBus s bits).de.phase = s.de.phase := rfl
@[simp] theorem setDeBus_pace : (setDeBus s bits).de.pace = s.de.pace := rfl
@[simp] theorem setDeBus_bus : (setDeBus s bits).de.bus = bits := rfl
@[simp] theorem setDeBus_draws : (setDeBus s bits).de.draws = s.de.draws := rfl
@[simp] theorem setDeBus_cu : (setDeBus s bits).cu = s.cu := rfl
@[simp] theorem setDeBus_params : (setDeBus s bits).params = s.params := rfl
@[simp] theorem setDeBus_mem : (setDeBus s bits).mem = s.mem := rfl
@[simp] theorem setDeBus_devices : (setDeBus s bits).devices = s.devices := rfl
@[simp] theorem setDeBus_inputs : (setDeBus s bits).inputs = s.inputs := rfl
@[simp] theorem setDeBus_rdata : (setDeBus s bits).rdata = s.rdata := rfl
@[simp] theorem setDeBus_hostDraws : (setDeBus s bits).hostDraws = s.hostDraws := rfl

@[simp] theorem digestLoaded_status : (digestLoaded b s).de.status = s.de.status := rfl
@[simp] theorem digestLoaded_regs : (digestLoaded b s).de.regs = s.de.regs := rfl
@[simp] theorem digestLoaded_h : (digestLoaded b s).de.h = s.de.h := rfl
@[simp] theorem digestLoaded_work : (digestLoaded b s).de.work = s.de.h.working := rfl
@[simp] theorem digestLoaded_sched : (digestLoaded b s).de.sched = schedule s.de.v b := rfl
@[simp] theorem digestLoaded_src : (digestLoaded b s).de.src = s.de.src := rfl
@[simp] theorem digestLoaded_len : (digestLoaded b s).de.len = s.de.len := rfl
@[simp] theorem digestLoaded_dst : (digestLoaded b s).de.dst = s.de.dst := rfl
@[simp] theorem digestLoaded_v : (digestLoaded b s).de.v = s.de.v := rfl
@[simp] theorem digestLoaded_hex : (digestLoaded b s).de.hex = s.de.hex := rfl
@[simp] theorem digestLoaded_p : (digestLoaded b s).de.p = s.de.p + 64 := rfl
@[simp] theorem digestLoaded_blk : (digestLoaded b s).de.blk = s.de.blk := rfl
@[simp] theorem digestLoaded_t : (digestLoaded b s).de.t = 0 := rfl
@[simp] theorem digestLoaded_phase : (digestLoaded b s).de.phase = .rounds := rfl
@[simp] theorem digestLoaded_pace : (digestLoaded b s).de.pace = s.de.pace := rfl
@[simp] theorem digestLoaded_bus : (digestLoaded b s).de.bus = s.de.bus := rfl
@[simp] theorem digestLoaded_draws : (digestLoaded b s).de.draws = s.de.draws := rfl
@[simp] theorem digestLoaded_cu : (digestLoaded b s).cu = s.cu := rfl
@[simp] theorem digestLoaded_params : (digestLoaded b s).params = s.params := rfl
@[simp] theorem digestLoaded_mem : (digestLoaded b s).mem = s.mem := rfl
@[simp] theorem digestLoaded_devices : (digestLoaded b s).devices = s.devices := rfl
@[simp] theorem digestLoaded_inputs : (digestLoaded b s).inputs = s.inputs := rfl
@[simp] theorem digestLoaded_rdata : (digestLoaded b s).rdata = s.rdata := rfl
@[simp] theorem digestLoaded_hostDraws : (digestLoaded b s).hostDraws = s.hostDraws := rfl

@[simp] theorem digestRound_status : (digestRound s).de.status = s.de.status := rfl
@[simp] theorem digestRound_regs : (digestRound s).de.regs = s.de.regs := rfl
@[simp] theorem digestRound_h : (digestRound s).de.h = s.de.h := rfl
@[simp] theorem digestRound_work : (digestRound s).de.work = shaRound s.de.sched s.de.work s.de.t := rfl
@[simp] theorem digestRound_sched : (digestRound s).de.sched = s.de.sched := rfl
@[simp] theorem digestRound_src : (digestRound s).de.src = s.de.src := rfl
@[simp] theorem digestRound_len : (digestRound s).de.len = s.de.len := rfl
@[simp] theorem digestRound_dst : (digestRound s).de.dst = s.de.dst := rfl
@[simp] theorem digestRound_v : (digestRound s).de.v = s.de.v := rfl
@[simp] theorem digestRound_hex : (digestRound s).de.hex = s.de.hex := rfl
@[simp] theorem digestRound_p : (digestRound s).de.p = s.de.p := rfl
@[simp] theorem digestRound_blk : (digestRound s).de.blk = s.de.blk := rfl
@[simp] theorem digestRound_t : (digestRound s).de.t = s.de.t + 1 := rfl
@[simp] theorem digestRound_phase : (digestRound s).de.phase = s.de.phase := rfl
@[simp] theorem digestRound_pace : (digestRound s).de.pace = s.de.pace := rfl
@[simp] theorem digestRound_bus : (digestRound s).de.bus = s.de.bus := rfl
@[simp] theorem digestRound_draws : (digestRound s).de.draws = s.de.draws := rfl
@[simp] theorem digestRound_cu : (digestRound s).cu = s.cu := rfl
@[simp] theorem digestRound_params : (digestRound s).params = s.params := rfl
@[simp] theorem digestRound_mem : (digestRound s).mem = s.mem := rfl
@[simp] theorem digestRound_devices : (digestRound s).devices = s.devices := rfl
@[simp] theorem digestRound_inputs : (digestRound s).inputs = s.inputs := rfl
@[simp] theorem digestRound_rdata : (digestRound s).rdata = s.rdata := rfl
@[simp] theorem digestRound_hostDraws : (digestRound s).hostDraws = s.hostDraws := rfl

@[simp] theorem digestRounds_status : (digestRounds s).de.status = s.de.status := rfl
@[simp] theorem digestRounds_regs : (digestRounds s).de.regs = s.de.regs := rfl
@[simp] theorem digestRounds_h : (digestRounds s).de.h = s.de.h := rfl
@[simp] theorem digestRounds_work : (digestRounds s).de.work = shaRounds s.de.sched s.de.work := rfl
@[simp] theorem digestRounds_sched : (digestRounds s).de.sched = s.de.sched := rfl
@[simp] theorem digestRounds_src : (digestRounds s).de.src = s.de.src := rfl
@[simp] theorem digestRounds_len : (digestRounds s).de.len = s.de.len := rfl
@[simp] theorem digestRounds_dst : (digestRounds s).de.dst = s.de.dst := rfl
@[simp] theorem digestRounds_v : (digestRounds s).de.v = s.de.v := rfl
@[simp] theorem digestRounds_hex : (digestRounds s).de.hex = s.de.hex := rfl
@[simp] theorem digestRounds_p : (digestRounds s).de.p = s.de.p := rfl
@[simp] theorem digestRounds_blk : (digestRounds s).de.blk = s.de.blk := rfl
@[simp] theorem digestRounds_t : (digestRounds s).de.t = 80 := rfl
@[simp] theorem digestRounds_phase : (digestRounds s).de.phase = s.de.phase := rfl
@[simp] theorem digestRounds_pace : (digestRounds s).de.pace = s.de.pace := rfl
@[simp] theorem digestRounds_bus : (digestRounds s).de.bus = s.de.bus := rfl
@[simp] theorem digestRounds_draws : (digestRounds s).de.draws = s.de.draws := rfl
@[simp] theorem digestRounds_cu : (digestRounds s).cu = s.cu := rfl
@[simp] theorem digestRounds_params : (digestRounds s).params = s.params := rfl
@[simp] theorem digestRounds_mem : (digestRounds s).mem = s.mem := rfl
@[simp] theorem digestRounds_devices : (digestRounds s).devices = s.devices := rfl
@[simp] theorem digestRounds_inputs : (digestRounds s).inputs = s.inputs := rfl
@[simp] theorem digestRounds_rdata : (digestRounds s).rdata = s.rdata := rfl
@[simp] theorem digestRounds_hostDraws : (digestRounds s).hostDraws = s.hostDraws := rfl

@[simp] theorem digestFolded_status : (digestFolded s).de.status = s.de.status := rfl
@[simp] theorem digestFolded_regs : (digestFolded s).de.regs = s.de.regs := rfl
@[simp] theorem digestFolded_h : (digestFolded s).de.h = s.de.h.add s.de.work := rfl
@[simp] theorem digestFolded_work : (digestFolded s).de.work = s.de.work := rfl
@[simp] theorem digestFolded_sched : (digestFolded s).de.sched = s.de.sched := rfl
@[simp] theorem digestFolded_src : (digestFolded s).de.src = s.de.src := rfl
@[simp] theorem digestFolded_len : (digestFolded s).de.len = s.de.len := rfl
@[simp] theorem digestFolded_dst : (digestFolded s).de.dst = s.de.dst := rfl
@[simp] theorem digestFolded_v : (digestFolded s).de.v = s.de.v := rfl
@[simp] theorem digestFolded_hex : (digestFolded s).de.hex = s.de.hex := rfl
@[simp] theorem digestFolded_p : (digestFolded s).de.p = s.de.p := rfl
@[simp] theorem digestFolded_blk : (digestFolded s).de.blk = s.de.blk + 1 := rfl
@[simp] theorem digestFolded_t : (digestFolded s).de.t = 0 := rfl
@[simp] theorem digestFolded_phase : (digestFolded s).de.phase = .load := rfl
@[simp] theorem digestFolded_pace : (digestFolded s).de.pace = s.de.pace := rfl
@[simp] theorem digestFolded_bus : (digestFolded s).de.bus = s.de.bus := rfl
@[simp] theorem digestFolded_draws : (digestFolded s).de.draws = s.de.draws := rfl
@[simp] theorem digestFolded_cu : (digestFolded s).cu = s.cu := rfl
@[simp] theorem digestFolded_params : (digestFolded s).params = s.params := rfl
@[simp] theorem digestFolded_mem : (digestFolded s).mem = s.mem := rfl
@[simp] theorem digestFolded_devices : (digestFolded s).devices = s.devices := rfl
@[simp] theorem digestFolded_inputs : (digestFolded s).inputs = s.inputs := rfl
@[simp] theorem digestFolded_rdata : (digestFolded s).rdata = s.rdata := rfl
@[simp] theorem digestFolded_hostDraws : (digestFolded s).hostDraws = s.hostDraws := rfl

@[simp] theorem digestToHex_status : (digestToHex s).de.status = s.de.status := rfl
@[simp] theorem digestToHex_regs : (digestToHex s).de.regs = s.de.regs := rfl
@[simp] theorem digestToHex_h : (digestToHex s).de.h = s.de.h := rfl
@[simp] theorem digestToHex_work : (digestToHex s).de.work = s.de.work := rfl
@[simp] theorem digestToHex_sched : (digestToHex s).de.sched = s.de.sched := rfl
@[simp] theorem digestToHex_src : (digestToHex s).de.src = s.de.src := rfl
@[simp] theorem digestToHex_len : (digestToHex s).de.len = s.de.len := rfl
@[simp] theorem digestToHex_dst : (digestToHex s).de.dst = s.de.dst := rfl
@[simp] theorem digestToHex_v : (digestToHex s).de.v = s.de.v := rfl
@[simp] theorem digestToHex_hex : (digestToHex s).de.hex = s.de.hex := rfl
@[simp] theorem digestToHex_p : (digestToHex s).de.p = s.de.p := rfl
@[simp] theorem digestToHex_blk : (digestToHex s).de.blk = s.de.blk := rfl
@[simp] theorem digestToHex_t : (digestToHex s).de.t = s.de.t := rfl
@[simp] theorem digestToHex_phase : (digestToHex s).de.phase = .hex := rfl
@[simp] theorem digestToHex_pace : (digestToHex s).de.pace = s.de.pace := rfl
@[simp] theorem digestToHex_bus : (digestToHex s).de.bus = s.de.bus := rfl
@[simp] theorem digestToHex_draws : (digestToHex s).de.draws = s.de.draws := rfl
@[simp] theorem digestToHex_cu : (digestToHex s).cu = s.cu := rfl
@[simp] theorem digestToHex_params : (digestToHex s).params = s.params := rfl
@[simp] theorem digestToHex_mem : (digestToHex s).mem = s.mem := rfl
@[simp] theorem digestToHex_devices : (digestToHex s).devices = s.devices := rfl
@[simp] theorem digestToHex_inputs : (digestToHex s).inputs = s.inputs := rfl
@[simp] theorem digestToHex_rdata : (digestToHex s).rdata = s.rdata := rfl
@[simp] theorem digestToHex_hostDraws : (digestToHex s).hostDraws = s.hostDraws := rfl

@[simp] theorem digestComplete_status : (digestComplete s).de.status = s.de.status.complete := rfl
@[simp] theorem digestComplete_regs : (digestComplete s).de.regs = s.de.regs := rfl
@[simp] theorem digestComplete_h : (digestComplete s).de.h = s.de.h := rfl
@[simp] theorem digestComplete_work : (digestComplete s).de.work = s.de.work := rfl
@[simp] theorem digestComplete_sched : (digestComplete s).de.sched = s.de.sched := rfl
@[simp] theorem digestComplete_src : (digestComplete s).de.src = s.de.src := rfl
@[simp] theorem digestComplete_len : (digestComplete s).de.len = s.de.len := rfl
@[simp] theorem digestComplete_dst : (digestComplete s).de.dst = s.de.dst := rfl
@[simp] theorem digestComplete_v : (digestComplete s).de.v = s.de.v := rfl
@[simp] theorem digestComplete_hex : (digestComplete s).de.hex = s.de.hex := rfl
@[simp] theorem digestComplete_p : (digestComplete s).de.p = s.de.p := rfl
@[simp] theorem digestComplete_blk : (digestComplete s).de.blk = s.de.blk := rfl
@[simp] theorem digestComplete_t : (digestComplete s).de.t = s.de.t := rfl
@[simp] theorem digestComplete_phase : (digestComplete s).de.phase = s.de.phase := rfl
@[simp] theorem digestComplete_pace : (digestComplete s).de.pace = s.de.pace := rfl
@[simp] theorem digestComplete_bus : (digestComplete s).de.bus = s.de.bus := rfl
@[simp] theorem digestComplete_draws : (digestComplete s).de.draws = s.de.draws := rfl
@[simp] theorem digestComplete_cu : (digestComplete s).cu = s.cu := rfl
@[simp] theorem digestComplete_params : (digestComplete s).params = s.params := rfl
@[simp] theorem digestComplete_mem : (digestComplete s).mem = s.mem := rfl
@[simp] theorem digestComplete_devices : (digestComplete s).devices = s.devices := rfl
@[simp] theorem digestComplete_inputs : (digestComplete s).inputs = s.inputs := rfl
@[simp] theorem digestComplete_rdata : (digestComplete s).rdata = s.rdata := rfl
@[simp] theorem digestComplete_hostDraws : (digestComplete s).hostDraws = s.hostDraws := rfl

@[simp] theorem digestBusError_status : (digestBusError s).de.status = s.de.status.raise .bus := rfl
@[simp] theorem digestBusError_regs : (digestBusError s).de.regs = s.de.regs := rfl
@[simp] theorem digestBusError_h : (digestBusError s).de.h = Hash.unspecified .de s.de.draws := rfl
@[simp] theorem digestBusError_work : (digestBusError s).de.work = s.de.work := rfl
@[simp] theorem digestBusError_sched : (digestBusError s).de.sched = s.de.sched := rfl
@[simp] theorem digestBusError_src : (digestBusError s).de.src = s.de.src := rfl
@[simp] theorem digestBusError_len : (digestBusError s).de.len = s.de.len := rfl
@[simp] theorem digestBusError_dst : (digestBusError s).de.dst = s.de.dst := rfl
@[simp] theorem digestBusError_v : (digestBusError s).de.v = s.de.v := rfl
@[simp] theorem digestBusError_hex : (digestBusError s).de.hex = s.de.hex := rfl
@[simp] theorem digestBusError_p : (digestBusError s).de.p = s.de.p := rfl
@[simp] theorem digestBusError_blk : (digestBusError s).de.blk = s.de.blk := rfl
@[simp] theorem digestBusError_t : (digestBusError s).de.t = s.de.t := rfl
@[simp] theorem digestBusError_phase : (digestBusError s).de.phase = s.de.phase := rfl
@[simp] theorem digestBusError_pace : (digestBusError s).de.pace = s.de.pace := rfl
@[simp] theorem digestBusError_bus : (digestBusError s).de.bus = s.de.bus := rfl
@[simp] theorem digestBusError_draws : (digestBusError s).de.draws =
    s.de.draws + Hash.unspecifiedDraws + hexBytes := rfl
@[simp] theorem digestBusError_cu : (digestBusError s).cu = s.cu := rfl
@[simp] theorem digestBusError_params : (digestBusError s).params = s.params := rfl
@[simp] theorem digestBusError_mem : (digestBusError s).mem =
    if s.de.hex then s.mem.scramble .de (s.de.draws + Hash.unspecifiedDraws) s.de.dst hexBytes else s.mem := rfl
@[simp] theorem digestBusError_devices : (digestBusError s).devices = s.devices := rfl
@[simp] theorem digestBusError_inputs : (digestBusError s).inputs = s.inputs := rfl
@[simp] theorem digestBusError_rdata : (digestBusError s).rdata = s.rdata := rfl
@[simp] theorem digestBusError_hostDraws : (digestBusError s).hostDraws = s.hostDraws := rfl

@[simp] theorem setCuBus_status : (setCuBus s bits).cu.status = s.cu.status := rfl
@[simp] theorem setCuBus_regs : (setCuBus s bits).cu.regs = s.cu.regs := rfl
@[simp] theorem setCuBus_ctxs : (setCuBus s bits).cu.ctxs = s.cu.ctxs := rfl
@[simp] theorem setCuBus_ctx : (setCuBus s bits).cu.ctx = s.cu.ctx := rfl
@[simp] theorem setCuBus_op : (setCuBus s bits).cu.op = s.cu.op := rfl
@[simp] theorem setCuBus_src : (setCuBus s bits).cu.src = s.cu.src := rfl
@[simp] theorem setCuBus_len : (setCuBus s bits).cu.len = s.cu.len := rfl
@[simp] theorem setCuBus_dst : (setCuBus s bits).cu.dst = s.cu.dst := rfl
@[simp] theorem setCuBus_k : (setCuBus s bits).cu.k = s.cu.k := rfl
@[simp] theorem setCuBus_x : (setCuBus s bits).cu.x = s.cu.x := rfl
@[simp] theorem setCuBus_key : (setCuBus s bits).cu.key = s.cu.key := rfl
@[simp] theorem setCuBus_n : (setCuBus s bits).cu.n = s.cu.n := rfl
@[simp] theorem setCuBus_phase : (setCuBus s bits).cu.phase = s.cu.phase := rfl
@[simp] theorem setCuBus_pace : (setCuBus s bits).cu.pace = s.cu.pace := rfl
@[simp] theorem setCuBus_bus : (setCuBus s bits).cu.bus = bits := rfl
@[simp] theorem setCuBus_draws : (setCuBus s bits).cu.draws = s.cu.draws := rfl
@[simp] theorem setCuBus_de : (setCuBus s bits).de = s.de := rfl
@[simp] theorem setCuBus_params : (setCuBus s bits).params = s.params := rfl
@[simp] theorem setCuBus_mem : (setCuBus s bits).mem = s.mem := rfl
@[simp] theorem setCuBus_devices : (setCuBus s bits).devices = s.devices := rfl
@[simp] theorem setCuBus_inputs : (setCuBus s bits).inputs = s.inputs := rfl
@[simp] theorem setCuBus_rdata : (setCuBus s bits).rdata = s.rdata := rfl
@[simp] theorem setCuBus_hostDraws : (setCuBus s bits).hostDraws = s.hostDraws := rfl

@[simp] theorem cipherComplete_status : (cipherComplete s).cu.status = s.cu.status.complete := rfl
@[simp] theorem cipherComplete_regs : (cipherComplete s).cu.regs = s.cu.regs := rfl
@[simp] theorem cipherComplete_ctxs : (cipherComplete s).cu.ctxs = s.cu.ctxs := rfl
@[simp] theorem cipherComplete_ctx : (cipherComplete s).cu.ctx = s.cu.ctx := rfl
@[simp] theorem cipherComplete_op : (cipherComplete s).cu.op = s.cu.op := rfl
@[simp] theorem cipherComplete_src : (cipherComplete s).cu.src = s.cu.src := rfl
@[simp] theorem cipherComplete_len : (cipherComplete s).cu.len = s.cu.len := rfl
@[simp] theorem cipherComplete_dst : (cipherComplete s).cu.dst = s.cu.dst := rfl
@[simp] theorem cipherComplete_k : (cipherComplete s).cu.k = s.cu.k := rfl
@[simp] theorem cipherComplete_x : (cipherComplete s).cu.x = s.cu.x := rfl
@[simp] theorem cipherComplete_key : (cipherComplete s).cu.key = s.cu.key := rfl
@[simp] theorem cipherComplete_n : (cipherComplete s).cu.n = s.cu.n := rfl
@[simp] theorem cipherComplete_phase : (cipherComplete s).cu.phase = s.cu.phase := rfl
@[simp] theorem cipherComplete_pace : (cipherComplete s).cu.pace = s.cu.pace := rfl
@[simp] theorem cipherComplete_bus : (cipherComplete s).cu.bus = s.cu.bus := rfl
@[simp] theorem cipherComplete_draws : (cipherComplete s).cu.draws = s.cu.draws := rfl
@[simp] theorem cipherComplete_de : (cipherComplete s).de = s.de := rfl
@[simp] theorem cipherComplete_params : (cipherComplete s).params = s.params := rfl
@[simp] theorem cipherComplete_mem : (cipherComplete s).mem = s.mem := rfl
@[simp] theorem cipherComplete_devices : (cipherComplete s).devices = s.devices := rfl
@[simp] theorem cipherComplete_inputs : (cipherComplete s).inputs = s.inputs := rfl
@[simp] theorem cipherComplete_rdata : (cipherComplete s).rdata = s.rdata := rfl
@[simp] theorem cipherComplete_hostDraws : (cipherComplete s).hostDraws = s.hostDraws := rfl

@[simp] theorem newKeyed_status : (newKeyed kb s).cu.status = s.cu.status := rfl
@[simp] theorem newKeyed_regs : (newKeyed kb s).cu.regs = s.cu.regs := rfl
@[simp] theorem newKeyed_ctx : (newKeyed kb s).cu.ctx = s.cu.ctx := rfl
@[simp] theorem newKeyed_op : (newKeyed kb s).cu.op = s.cu.op := rfl
@[simp] theorem newKeyed_src : (newKeyed kb s).cu.src = s.cu.src := rfl
@[simp] theorem newKeyed_len : (newKeyed kb s).cu.len = s.cu.len := rfl
@[simp] theorem newKeyed_dst : (newKeyed kb s).cu.dst = s.cu.dst := rfl
@[simp] theorem newKeyed_k : (newKeyed kb s).cu.k = 0 := rfl
@[simp] theorem newKeyed_x : (newKeyed kb s).cu.x = 0 := rfl
@[simp] theorem newKeyed_key : (newKeyed kb s).cu.key = kb := rfl
@[simp] theorem newKeyed_n : (newKeyed kb s).cu.n = s.cu.n := rfl
@[simp] theorem newKeyed_phase : (newKeyed kb s).cu.phase = .schedule := rfl
@[simp] theorem newKeyed_pace : (newKeyed kb s).cu.pace = s.cu.pace := rfl
@[simp] theorem newKeyed_bus : (newKeyed kb s).cu.bus = s.cu.bus := rfl
@[simp] theorem newKeyed_draws : (newKeyed kb s).cu.draws = s.cu.draws := rfl
@[simp] theorem newKeyed_de : (newKeyed kb s).de = s.de := rfl
@[simp] theorem newKeyed_params : (newKeyed kb s).params = s.params := rfl
@[simp] theorem newKeyed_mem : (newKeyed kb s).mem = s.mem := rfl
@[simp] theorem newKeyed_devices : (newKeyed kb s).devices = s.devices := rfl
@[simp] theorem newKeyed_inputs : (newKeyed kb s).inputs = s.inputs := rfl
@[simp] theorem newKeyed_rdata : (newKeyed kb s).rdata = s.rdata := rfl
@[simp] theorem newKeyed_hostDraws : (newKeyed kb s).hostDraws = s.hostDraws := rfl

@[simp] theorem newSchedule_status : (newSchedule s).cu.status = s.cu.status := rfl
@[simp] theorem newSchedule_regs : (newSchedule s).cu.regs = s.cu.regs := rfl
@[simp] theorem newSchedule_ctx : (newSchedule s).cu.ctx = s.cu.ctx := rfl
@[simp] theorem newSchedule_op : (newSchedule s).cu.op = s.cu.op := rfl
@[simp] theorem newSchedule_src : (newSchedule s).cu.src = s.cu.src := rfl
@[simp] theorem newSchedule_len : (newSchedule s).cu.len = s.cu.len := rfl
@[simp] theorem newSchedule_dst : (newSchedule s).cu.dst = s.cu.dst := rfl
@[simp] theorem newSchedule_k : (newSchedule s).cu.k = s.cu.k + 1 := rfl
@[simp] theorem newSchedule_key : (newSchedule s).cu.key = s.cu.key := rfl
@[simp] theorem newSchedule_n : (newSchedule s).cu.n = s.cu.n := rfl
@[simp] theorem newSchedule_phase : (newSchedule s).cu.phase = s.cu.phase := rfl
@[simp] theorem newSchedule_pace : (newSchedule s).cu.pace = s.cu.pace := rfl
@[simp] theorem newSchedule_bus : (newSchedule s).cu.bus = s.cu.bus := rfl
@[simp] theorem newSchedule_draws : (newSchedule s).cu.draws = s.cu.draws := rfl
@[simp] theorem newSchedule_de : (newSchedule s).de = s.de := rfl
@[simp] theorem newSchedule_params : (newSchedule s).params = s.params := rfl
@[simp] theorem newSchedule_mem : (newSchedule s).mem = s.mem := rfl
@[simp] theorem newSchedule_devices : (newSchedule s).devices = s.devices := rfl
@[simp] theorem newSchedule_inputs : (newSchedule s).inputs = s.inputs := rfl
@[simp] theorem newSchedule_rdata : (newSchedule s).rdata = s.rdata := rfl
@[simp] theorem newSchedule_hostDraws : (newSchedule s).hostDraws = s.hostDraws := rfl

@[simp] theorem newScheduleAll_status : (newScheduleAll s).cu.status = s.cu.status := rfl
@[simp] theorem newScheduleAll_regs : (newScheduleAll s).cu.regs = s.cu.regs := rfl
@[simp] theorem newScheduleAll_ctx : (newScheduleAll s).cu.ctx = s.cu.ctx := rfl
@[simp] theorem newScheduleAll_op : (newScheduleAll s).cu.op = s.cu.op := rfl
@[simp] theorem newScheduleAll_src : (newScheduleAll s).cu.src = s.cu.src := rfl
@[simp] theorem newScheduleAll_len : (newScheduleAll s).cu.len = s.cu.len := rfl
@[simp] theorem newScheduleAll_dst : (newScheduleAll s).cu.dst = s.cu.dst := rfl
@[simp] theorem newScheduleAll_k : (newScheduleAll s).cu.k = 256 := rfl
@[simp] theorem newScheduleAll_x : (newScheduleAll s).cu.x = (ksa s.cu.key s.cu.len.toNat).2 := rfl
@[simp] theorem newScheduleAll_key : (newScheduleAll s).cu.key = s.cu.key := rfl
@[simp] theorem newScheduleAll_n : (newScheduleAll s).cu.n = s.cu.n := rfl
@[simp] theorem newScheduleAll_phase : (newScheduleAll s).cu.phase = s.cu.phase := rfl
@[simp] theorem newScheduleAll_pace : (newScheduleAll s).cu.pace = s.cu.pace := rfl
@[simp] theorem newScheduleAll_bus : (newScheduleAll s).cu.bus = s.cu.bus := rfl
@[simp] theorem newScheduleAll_draws : (newScheduleAll s).cu.draws = s.cu.draws := rfl
@[simp] theorem newScheduleAll_de : (newScheduleAll s).de = s.de := rfl
@[simp] theorem newScheduleAll_params : (newScheduleAll s).params = s.params := rfl
@[simp] theorem newScheduleAll_mem : (newScheduleAll s).mem = s.mem := rfl
@[simp] theorem newScheduleAll_devices : (newScheduleAll s).devices = s.devices := rfl
@[simp] theorem newScheduleAll_inputs : (newScheduleAll s).inputs = s.inputs := rfl
@[simp] theorem newScheduleAll_rdata : (newScheduleAll s).rdata = s.rdata := rfl
@[simp] theorem newScheduleAll_hostDraws : (newScheduleAll s).hostDraws = s.hostDraws := rfl

@[simp] theorem newFinish_status : (newFinish s).cu.status = s.cu.status.complete := rfl
@[simp] theorem newFinish_regs : (newFinish s).cu.regs = s.cu.regs := rfl
@[simp] theorem newFinish_ctx : (newFinish s).cu.ctx = s.cu.ctx := rfl
@[simp] theorem newFinish_op : (newFinish s).cu.op = s.cu.op := rfl
@[simp] theorem newFinish_src : (newFinish s).cu.src = s.cu.src := rfl
@[simp] theorem newFinish_len : (newFinish s).cu.len = s.cu.len := rfl
@[simp] theorem newFinish_dst : (newFinish s).cu.dst = s.cu.dst := rfl
@[simp] theorem newFinish_k : (newFinish s).cu.k = s.cu.k := rfl
@[simp] theorem newFinish_x : (newFinish s).cu.x = s.cu.x := rfl
@[simp] theorem newFinish_key : (newFinish s).cu.key = s.cu.key := rfl
@[simp] theorem newFinish_n : (newFinish s).cu.n = s.cu.n := rfl
@[simp] theorem newFinish_phase : (newFinish s).cu.phase = s.cu.phase := rfl
@[simp] theorem newFinish_pace : (newFinish s).cu.pace = s.cu.pace := rfl
@[simp] theorem newFinish_bus : (newFinish s).cu.bus = s.cu.bus := rfl
@[simp] theorem newFinish_draws : (newFinish s).cu.draws = s.cu.draws := rfl
@[simp] theorem newFinish_de : (newFinish s).de = s.de := rfl
@[simp] theorem newFinish_params : (newFinish s).params = s.params := rfl
@[simp] theorem newFinish_mem : (newFinish s).mem = s.mem := rfl
@[simp] theorem newFinish_devices : (newFinish s).devices = s.devices := rfl
@[simp] theorem newFinish_inputs : (newFinish s).inputs = s.inputs := rfl
@[simp] theorem newFinish_rdata : (newFinish s).rdata = s.rdata := rfl
@[simp] theorem newFinish_hostDraws : (newFinish s).hostDraws = s.hostDraws := rfl

@[simp] theorem xformWrite_status : (xformWrite s).cu.status = s.cu.status := rfl
@[simp] theorem xformWrite_regs : (xformWrite s).cu.regs = s.cu.regs := rfl
@[simp] theorem xformWrite_ctx : (xformWrite s).cu.ctx = s.cu.ctx := rfl
@[simp] theorem xformWrite_op : (xformWrite s).cu.op = s.cu.op := rfl
@[simp] theorem xformWrite_src : (xformWrite s).cu.src = s.cu.src := rfl
@[simp] theorem xformWrite_len : (xformWrite s).cu.len = s.cu.len := rfl
@[simp] theorem xformWrite_dst : (xformWrite s).cu.dst = s.cu.dst := rfl
@[simp] theorem xformWrite_k : (xformWrite s).cu.k = s.cu.k := rfl
@[simp] theorem xformWrite_x : (xformWrite s).cu.x = s.cu.x := rfl
@[simp] theorem xformWrite_key : (xformWrite s).cu.key = s.cu.key := rfl
@[simp] theorem xformWrite_n : (xformWrite s).cu.n = s.cu.n + 1 := rfl
@[simp] theorem xformWrite_phase : (xformWrite s).cu.phase = s.cu.phase := rfl
@[simp] theorem xformWrite_pace : (xformWrite s).cu.pace = s.cu.pace := rfl
@[simp] theorem xformWrite_bus : (xformWrite s).cu.bus = s.cu.bus := rfl
@[simp] theorem xformWrite_draws : (xformWrite s).cu.draws = s.cu.draws := rfl
@[simp] theorem xformWrite_de : (xformWrite s).de = s.de := rfl
@[simp] theorem xformWrite_params : (xformWrite s).params = s.params := rfl
@[simp] theorem xformWrite_mem : (xformWrite s).mem =
    s.mem.write (byteAddr s.cu.dst s.cu.n) (s.mem.read (byteAddr s.cu.src s.cu.n) ^^^ ksByte (ksNext (s.cu.context s.cu.ctx.toNat))) := rfl
@[simp] theorem xformWrite_devices : (xformWrite s).devices = s.devices := rfl
@[simp] theorem xformWrite_inputs : (xformWrite s).inputs = s.inputs := rfl
@[simp] theorem xformWrite_rdata : (xformWrite s).rdata = s.rdata := rfl
@[simp] theorem xformWrite_hostDraws : (xformWrite s).hostDraws = s.hostDraws := rfl

@[simp] theorem freeFinish_status : (freeFinish s).cu.status = s.cu.status.complete := rfl
@[simp] theorem freeFinish_regs : (freeFinish s).cu.regs = s.cu.regs := rfl
@[simp] theorem freeFinish_ctx : (freeFinish s).cu.ctx = s.cu.ctx := rfl
@[simp] theorem freeFinish_op : (freeFinish s).cu.op = s.cu.op := rfl
@[simp] theorem freeFinish_src : (freeFinish s).cu.src = s.cu.src := rfl
@[simp] theorem freeFinish_len : (freeFinish s).cu.len = s.cu.len := rfl
@[simp] theorem freeFinish_dst : (freeFinish s).cu.dst = s.cu.dst := rfl
@[simp] theorem freeFinish_k : (freeFinish s).cu.k = s.cu.k := rfl
@[simp] theorem freeFinish_x : (freeFinish s).cu.x = s.cu.x := rfl
@[simp] theorem freeFinish_key : (freeFinish s).cu.key = s.cu.key := rfl
@[simp] theorem freeFinish_n : (freeFinish s).cu.n = s.cu.n := rfl
@[simp] theorem freeFinish_phase : (freeFinish s).cu.phase = s.cu.phase := rfl
@[simp] theorem freeFinish_pace : (freeFinish s).cu.pace = s.cu.pace := rfl
@[simp] theorem freeFinish_bus : (freeFinish s).cu.bus = s.cu.bus := rfl
@[simp] theorem freeFinish_draws : (freeFinish s).cu.draws = s.cu.draws + Context.unspecifiedDraws := rfl
@[simp] theorem freeFinish_de : (freeFinish s).de = s.de := rfl
@[simp] theorem freeFinish_params : (freeFinish s).params = s.params := rfl
@[simp] theorem freeFinish_mem : (freeFinish s).mem = s.mem := rfl
@[simp] theorem freeFinish_devices : (freeFinish s).devices = s.devices := rfl
@[simp] theorem freeFinish_inputs : (freeFinish s).inputs = s.inputs := rfl
@[simp] theorem freeFinish_rdata : (freeFinish s).rdata = s.rdata := rfl
@[simp] theorem freeFinish_hostDraws : (freeFinish s).hostDraws = s.hostDraws := rfl
/-- A unit status after a bus error is idle. -/
@[simp] theorem cipherBusError_status : (cipherBusError s).cu.status = s.cu.status.raise .bus := by
  unfold cipherBusError
  dsimp only
  split <;> rfl

/-- After a bus error the context the command names is unspecified and invalid (R132). -/
@[simp] theorem cipherBusError_context :
    (cipherBusError s).cu.context s.cu.ctx.toNat = Context.unspecified .cu s.cu.draws := by
  have h : ∀ u : CipherUnit, u.ctxs = (s.cu.setContext s.cu.ctx.toNat (Context.unspecified .cu s.cu.draws)).ctxs →
      u.context s.cu.ctx.toNat = Context.unspecified .cu s.cu.draws := fun u e => by
    simp only [CipherUnit.context, e]
    exact context_setContext_same _ _ _
  unfold cipherBusError
  dsimp only
  split <;> exact h _ rfl

/-- The contexts read only `ctxs`. -/
theorem context_congr {u w : CipherUnit} (h : u.ctxs = w.ctxs) (c : Nat) : u.context c = w.context c := by
  simp only [CipherUnit.context, h]

/-- The context the command names after each step of CU. -/
@[simp] theorem newKeyed_context : (newKeyed kb s).cu.context s.cu.ctx.toNat =
    { s.cu.context s.cu.ctx.toNat with sbox := identityBox } := context_setContext_same _ _ _

@[simp] theorem newSchedule_context : (newSchedule s).cu.context s.cu.ctx.toNat =
    { s.cu.context s.cu.ctx.toNat with
      sbox := (ksaStep s.cu.key s.cu.len.toNat ((s.cu.context s.cu.ctx.toNat).sbox, s.cu.x) s.cu.k).1 } :=
  context_setContext_same _ _ _

@[simp] theorem newScheduleAll_context : (newScheduleAll s).cu.context s.cu.ctx.toNat =
    { s.cu.context s.cu.ctx.toNat with sbox := (ksa s.cu.key s.cu.len.toNat).1 } := context_setContext_same _ _ _

@[simp] theorem newFinish_context : (newFinish s).cu.context s.cu.ctx.toNat =
    { s.cu.context s.cu.ctx.toNat with i := 0, j := 0, valid := true } := context_setContext_same _ _ _

@[simp] theorem xformWrite_context : (xformWrite s).cu.context s.cu.ctx.toNat =
    ksNext (s.cu.context s.cu.ctx.toNat) := context_setContext_same _ _ _

@[simp] theorem freeFinish_context : (freeFinish s).cu.context s.cu.ctx.toNat =
    Context.unspecified .cu s.cu.draws := context_setContext_same _ _ _

end Sys2Proof.Machine
end

