-- ==== Sys2Proof/Laws/Cipher.lean ====
section
/-! SUPPORT. What each operation of the Cipher Unit can do, said once: its frame and its outcomes. -/

namespace Sys2Proof.Machine

/-- What CU leaves alone while a command on its latched context runs: DE, every other context, and host memory
outside the output of RC4.XFORM. -/
structure CipherFrame (s t : State) : Prop where
  de : t.de = s.de
  params : t.params = s.params
  devices : t.devices = s.devices
  inputs : t.inputs = s.inputs
  rdata : t.rdata = s.rdata
  hostDraws : t.hostDraws = s.hostDraws
  regs : t.cu.regs = s.cu.regs
  pace : t.cu.pace = s.cu.pace
  ovr : t.cu.status.ovr = s.cu.status.ovr
  ctx : t.cu.ctx = s.cu.ctx
  op : t.cu.op = s.cu.op
  src : t.cu.src = s.cu.src
  len : t.cu.len = s.cu.len
  dst : t.cu.dst = s.cu.dst
  others : ∀ c, slot c ≠ slot s.cu.ctx.toNat → t.cu.context c = s.cu.context c
  noXform : s.cu.op ≠ .xform → t.mem = s.mem
  mem : sameOutside s.mem t.mem s.cu.dst s.cu.len.toNat

theorem cipherFrame_refl (s : State) : CipherFrame s s := by
  constructor <;> first | rfl | exact fun _ => rfl | exact fun _ _ => rfl

theorem CipherFrame.trans {s t r : State} (h : CipherFrame s t) (k : CipherFrame t r) : CipherFrame s r where
  de := k.de.trans h.de
  params := k.params.trans h.params
  devices := k.devices.trans h.devices
  inputs := k.inputs.trans h.inputs
  rdata := k.rdata.trans h.rdata
  hostDraws := k.hostDraws.trans h.hostDraws
  regs := k.regs.trans h.regs
  pace := k.pace.trans h.pace
  ovr := k.ovr.trans h.ovr
  ctx := k.ctx.trans h.ctx
  op := k.op.trans h.op
  src := k.src.trans h.src
  len := k.len.trans h.len
  dst := k.dst.trans h.dst
  others := fun c hc => (k.others c (h.ctx ▸ hc)).trans (h.others c hc)
  noXform := fun e => (k.noXform (h.op ▸ e)).trans (h.noXform e)
  mem := fun a ha => (k.mem a (by rw [h.dst, h.len]; exact ha)).trans (h.mem a ha)

/-- A step of CU that writes no memory and, of the contexts, only the one the command names. -/
theorem cipherFrame_datapath (s : State) (u : CipherUnit) (regs : u.regs = s.cu.regs) (pace : u.pace = s.cu.pace)
    (ovr : u.status.ovr = s.cu.status.ovr) (ctx : u.ctx = s.cu.ctx) (op : u.op = s.cu.op) (src : u.src = s.cu.src)
    (len : u.len = s.cu.len) (dst : u.dst = s.cu.dst)
    (others : ∀ c, slot c ≠ slot s.cu.ctx.toNat → u.context c = s.cu.context c) :
    CipherFrame s { s with cu := u } := by
  constructor <;> first | assumption | rfl | exact fun _ => rfl | exact fun _ _ => rfl

theorem setCuBus_frame (s : State) (bus : List Bool) : CipherFrame s (setCuBus s bus) :=
  cipherFrame_datapath s _ rfl rfl rfl rfl rfl rfl rfl rfl fun _ _ => rfl

/-- Writing the named context leaves the others alone. -/
theorem named_others (u : CipherUnit) (x : Context) (c : Nat) (h : slot c ≠ slot u.ctx.toNat) :
    (u.setContext u.ctx.toNat x).context c = u.context c := context_setContext_other u _ x h

theorem cipherBusError_frame (s : State) : CipherFrame s (cipherBusError s) := by
  unfold cipherBusError
  dsimp only
  split
  · constructor <;> try rfl
    · exact named_others s.cu _
    · exact fun e => absurd ‹_› e
    · exact scramble_outside _ _ _ _ _
  · exact cipherFrame_datapath s _ rfl rfl rfl rfl rfl rfl rfl rfl (named_others s.cu _)
  · exact cipherFrame_datapath s _ rfl rfl rfl rfl rfl rfl rfl rfl (named_others s.cu _)

theorem cipherComplete_frame (s : State) : CipherFrame s (cipherComplete s) :=
  cipherFrame_datapath s _ rfl rfl rfl rfl rfl rfl rfl rfl fun _ _ => rfl

/-- The key bytes come in, or the command ends with a bus error. -/
theorem newReadKey_cases (s : State) :
    (∃ kb bus, memFetch s.mem s.cu.bus s.cu.src 0 (keyUsed s.cu.len) = (some kb, bus) ∧
      newReadKey s = newKeyed kb (setCuBus s bus)) ∨
    ∃ bus, newReadKey s = cipherBusError (setCuBus s bus) := by
  unfold newReadKey
  rcases h : memFetch s.mem s.cu.bus s.cu.src 0 (keyUsed s.cu.len) with ⟨_ | b, bus⟩
  · exact .inr ⟨bus, rfl⟩
  · exact .inl ⟨b, bus, rfl, rfl⟩

theorem newKeyed_frame (kb : List Byte) (s : State) : CipherFrame s (newKeyed kb s) :=
  cipherFrame_datapath s _ rfl rfl rfl rfl rfl rfl rfl rfl (named_others s.cu _)

theorem newReadKey_frame (s : State) : CipherFrame s (newReadKey s) := by
  obtain ⟨kb, bus, -, h⟩ | ⟨bus, h⟩ := newReadKey_cases s <;> rw [h]
  · exact (setCuBus_frame s bus).trans (newKeyed_frame kb _)
  · exact (setCuBus_frame s bus).trans (cipherBusError_frame _)

theorem newSchedule_frame (s : State) : CipherFrame s (newSchedule s) :=
  cipherFrame_datapath s _ rfl rfl rfl rfl rfl rfl rfl rfl (named_others s.cu _)

theorem newScheduleAll_frame (s : State) : CipherFrame s (newScheduleAll s) :=
  cipherFrame_datapath s _ rfl rfl rfl rfl rfl rfl rfl rfl (named_others s.cu _)

theorem newFinish_frame (s : State) : CipherFrame s (newFinish s) :=
  cipherFrame_datapath s _ rfl rfl rfl rfl rfl rfl rfl rfl (named_others s.cu _)

theorem freeFinish_frame (s : State) : CipherFrame s (freeFinish s) :=
  cipherFrame_datapath s _ rfl rfl rfl rfl rfl rfl rfl rfl (named_others s.cu _)

/-- Byte `n` of the output is written, for a command that is RC4.XFORM and not past its last byte. -/
theorem xformWrite_frame (s : State) (hop : s.cu.op = .xform) (hn : s.cu.n < s.cu.len.toNat) :
    CipherFrame s (xformWrite s) := by
  constructor <;> try rfl
  · exact named_others s.cu _
  · exact fun e => absurd hop e
  · exact fun a ha => read_write_other _ _ (ha _ hn)

/-- A byte is transformed, or the command ends with a bus error. -/
theorem xformByte_cases (s : State) :
    (busError s.cu.bus = false ∧ busError s.cu.bus.tail = false ∧
      xformByte s = xformWrite (setCuBus s s.cu.bus.tail.tail)) ∨
    ∃ bus, xformByte s = cipherBusError (setCuBus s bus) := by
  unfold xformByte
  dsimp only
  split
  · exact .inr ⟨_, rfl⟩
  · split
    · exact .inr ⟨_, rfl⟩
    · rename_i h0 h1
      exact .inl ⟨by simpa using h0, by simpa using h1, rfl⟩

theorem xformByte_frame (s : State) (hop : s.cu.op = .xform) (hn : s.cu.n < s.cu.len.toNat) :
    CipherFrame s (xformByte s) := by
  obtain ⟨-, -, h⟩ | ⟨bus, h⟩ := xformByte_cases s <;> rw [h]
  · exact (setCuBus_frame s _).trans (xformWrite_frame _ hop hn)
  · exact (setCuBus_frame s _).trans (cipherBusError_frame _)

/-- After a byte that ended with no bus error the next one is due. -/
theorem xformByte_n (s : State) (h : (xformByte s).cu.status.busy = true) : (xformByte s).cu.n = s.cu.n + 1 := by
  obtain ⟨-, -, e⟩ | ⟨bus, e⟩ := xformByte_cases s <;> rw [e] at h ⊢
  · rfl
  · unfold cipherBusError at h
    dsimp only at h
    split at h <;> simp at h

/-- A turn of CU leaves alone what CU leaves alone. -/
theorem cipherTurn_frame (s : State) : CipherFrame s (cipherTurn s) := by
  unfold cipherTurn
  split
  · split
    · split
      · exact newReadKey_frame s
      · split
        · exact newSchedule_frame s
        · exact newFinish_frame s
    · split
      · exact xformByte_frame s ‹_› ‹_›
      · exact cipherComplete_frame s
    · exact freeFinish_frame s
  · exact cipherFrame_refl s

/-- A turn of CU neither reads nor changes what waits outside. -/
theorem cipherTurn_inputs (s : State) (l : List Event) :
    cipherTurn { s with inputs := l } = { cipherTurn s with inputs := l } := by
  have hbe : ∀ u : State, cipherBusError { u with inputs := l } = { cipherBusError u with inputs := l } := by
    intro u; unfold cipherBusError; dsimp only; split <;> rfl
  unfold cipherTurn
  dsimp only
  split
  · split
    · split
      · unfold newReadKey; dsimp only
        rcases memFetch s.mem s.cu.bus s.cu.src 0 (keyUsed s.cu.len) with ⟨_ | b, bus⟩
        · exact hbe (setCuBus s bus)
        · rfl
      · split <;> rfl
    · split
      · unfold xformByte; dsimp only; split
        · exact hbe (setCuBus s _)
        · split
          · exact hbe (setCuBus s _)
          · rfl
      · rfl
    · rfl
  · rfl

theorem xformBytes_frame (n : Nat) (s : State) (hop : s.cu.op = .xform) (hn : s.cu.n + n ≤ s.cu.len.toNat) :
    CipherFrame s (xformBytes n s) := by
  induction n generalizing s with
  | zero => exact cipherFrame_refl s
  | succ n ih =>
    have h1 := xformByte_frame s hop (by omega)
    unfold xformBytes
    dsimp only
    split
    · refine h1.trans (ih _ (h1.op.trans hop) ?_)
      rw [xformByte_n s ‹_›, h1.len]
      omega
    · exact h1

/-- A started command that runs to completion leaves alone what CU leaves alone. -/
theorem cipherRun_frame (s : State) (hn : s.cu.n = 0) : CipherFrame s (cipherRun s) := by
  unfold cipherRun
  split
  · unfold newRun
    dsimp only
    split
    · exact (newReadKey_frame s).trans ((newScheduleAll_frame _).trans (newFinish_frame _))
    · exact newReadKey_frame s
  · have h := xformBytes_frame s.cu.len.toNat s ‹_› (by omega)
    unfold xformRun
    dsimp only
    split
    · exact h.trans (cipherComplete_frame _)
    · exact h
  · exact freeFinish_frame s

/-- A cipher command on every path: dropped, ended by a check, an empty transform, refused, at fault, completed or
started. -/
theorem cipherCommand_cases (op : CipherOp) (c : Nat) (s : State) :
    (s.cu.status.busy = true ∧
      cipherCommand op c s = .next { s with cu := { s.cu with status := s.cu.status.drop } }) ∨
    (s.cu.status.busy = false ∧ ∃ e, cipherCheck op c (nCtx s.params) s.cu = some e ∧
      cipherCommand op c s = .next { s with cu := { s.cu with status := s.cu.status.accept.raise e } }) ∨
    (s.cu.status.busy = false ∧ cipherCheck op c (nCtx s.params) s.cu = none ∧
      ((emptyXform op s.cu.regs = true ∧
          cipherCommand op c s = .next { s with cu := cipherAtOnce op c s.cu }) ∨
        cipherCommand op c s = .refused .deviceRange ∨ cipherCommand op c s = .fault .hostContract ∨
        (s.cu.pace = .whole ∧ cipherCommand op c s = .next (cipherRun { s with cu := cipherStart op c s.cu })) ∨
        (s.cu.pace = .stepped ∧ cipherCommand op c s = .next { s with cu := cipherStart op c s.cu }))) := by
  unfold cipherCommand
  dsimp only
  cases hb : s.cu.status.busy
  · right
    cases hc : cipherCheck op c (nCtx s.params) s.cu with
    | some e => exact .inl ⟨rfl, e, rfl, rfl⟩
    | none =>
      refine .inr ⟨rfl, rfl, ?_⟩
      simp only [Bool.false_eq_true, if_false]
      split
      · exact .inl ⟨‹_›, rfl⟩
      · split
        · exact .inr (.inl rfl)
        · split
          · exact .inr (.inr (.inl rfl))
          · cases hp : s.cu.pace
            · exact .inr (.inr (.inr (.inl ⟨rfl, rfl⟩)))
            · exact .inr (.inr (.inr (.inr ⟨rfl, rfl⟩)))
  · exact .inl ⟨rfl, by simp⟩

/-- A check that passes: the context exists. -/
theorem cipherCheck_exists {op : CipherOp} {c n : Nat} {u : CipherUnit} (h : cipherCheck op c n u = none) : c < n := by
  by_contra hc
  simp [cipherCheck, Nat.le_of_not_lt hc] at h

end Sys2Proof.Machine
end

