-- ==== Sys2Proof/Laws/Digest.lean ====
section
/-! SUPPORT. What each operation of the Digest Engine can do, said once: its frame, its outcomes, and the block it
fetches. -/

namespace Sys2Proof.Machine

/-- What DE leaves alone: everything but its own datapath, and host memory outside its hex string. -/
structure DigestFrame (s t : State) : Prop where
  cu : t.cu = s.cu
  params : t.params = s.params
  devices : t.devices = s.devices
  inputs : t.inputs = s.inputs
  rdata : t.rdata = s.rdata
  hostDraws : t.hostDraws = s.hostDraws
  regs : t.de.regs = s.de.regs
  pace : t.de.pace = s.de.pace
  ovr : t.de.status.ovr = s.de.status.ovr
  src : t.de.src = s.de.src
  len : t.de.len = s.de.len
  dst : t.de.dst = s.de.dst
  v : t.de.v = s.de.v
  hex : t.de.hex = s.de.hex
  noHex : s.de.hex = false → t.mem = s.mem
  mem : sameOutside s.mem t.mem s.de.dst hexBytes

theorem digestFrame_refl (s : State) : DigestFrame s s := by constructor <;> first | rfl | exact fun _ => rfl | exact fun _ _ => rfl

theorem DigestFrame.trans {s t r : State} (h : DigestFrame s t) (k : DigestFrame t r) : DigestFrame s r where
  cu := k.cu.trans h.cu
  params := k.params.trans h.params
  devices := k.devices.trans h.devices
  inputs := k.inputs.trans h.inputs
  rdata := k.rdata.trans h.rdata
  hostDraws := k.hostDraws.trans h.hostDraws
  regs := k.regs.trans h.regs
  pace := k.pace.trans h.pace
  ovr := k.ovr.trans h.ovr
  src := k.src.trans h.src
  len := k.len.trans h.len
  dst := k.dst.trans h.dst
  v := k.v.trans h.v
  hex := k.hex.trans h.hex
  noHex := fun e => (k.noHex (h.hex.trans e)).trans (h.noHex e)
  mem := fun a ha => (k.mem a (h.dst ▸ ha)).trans (h.mem a ha)

/-- A step of DE that writes no memory and only its datapath. -/
theorem digestFrame_datapath (s : State) (d : DigestEngine) (regs : d.regs = s.de.regs) (pace : d.pace = s.de.pace)
    (ovr : d.status.ovr = s.de.status.ovr) (src : d.src = s.de.src) (len : d.len = s.de.len) (dst : d.dst = s.de.dst)
    (v : d.v = s.de.v) (hex : d.hex = s.de.hex) : DigestFrame s { s with de := d } := by
  constructor <;> first | assumption | rfl | exact fun _ => rfl | exact fun _ _ => rfl

theorem digestBusError_frame (s : State) : DigestFrame s (digestBusError s) := by
  constructor <;> try rfl
  · intro h
    simp [digestBusError, h]
  · cases h : s.de.hex
    · simp [digestBusError, h, sameOutside]
    · simpa [digestBusError, h] using scramble_outside _ _ _ _ _

theorem setDeBus_frame (s : State) (bus : List Bool) : DigestFrame s (setDeBus s bus) :=
  digestFrame_datapath s _ rfl rfl rfl rfl rfl rfl rfl rfl

/-- A load succeeds with a block, or ends the command with a bus error. -/
theorem digestLoad_cases (s : State) :
    (∃ b bus, fetchBlock s.mem s.de.bus s.de.src s.de.len.toNat s.de.p 64 = (some b, bus) ∧
      digestLoad s = digestLoaded b (setDeBus s bus)) ∨
    ∃ bus, fetchBlock s.mem s.de.bus s.de.src s.de.len.toNat s.de.p 64 = (none, bus) ∧
      digestLoad s = digestBusError (setDeBus s bus) := by
  unfold digestLoad
  rcases h : fetchBlock s.mem s.de.bus s.de.src s.de.len.toNat s.de.p 64 with ⟨_ | b, bus⟩
  · exact .inr ⟨bus, rfl, rfl⟩
  · exact .inl ⟨b, bus, rfl, rfl⟩

theorem digestLoad_frame (s : State) : DigestFrame s (digestLoad s) := by
  obtain ⟨b, bus, -, h⟩ | ⟨bus, -, h⟩ := digestLoad_cases s <;> rw [h]
  · exact digestFrame_datapath s _ rfl rfl rfl rfl rfl rfl rfl rfl
  · exact (setDeBus_frame s bus).trans (digestBusError_frame _)

theorem digestRound_frame (s : State) : DigestFrame s (digestRound s) :=
  digestFrame_datapath s _ rfl rfl rfl rfl rfl rfl rfl rfl

theorem digestRounds_frame (s : State) : DigestFrame s (digestRounds s) :=
  digestFrame_datapath s _ rfl rfl rfl rfl rfl rfl rfl rfl

theorem digestFold_frame (s : State) : DigestFrame s (digestFold s) := by
  unfold digestFold
  split
  · exact digestFrame_datapath s _ rfl rfl rfl rfl rfl rfl rfl rfl
  · split
    · exact digestFrame_datapath s _ rfl rfl rfl rfl rfl rfl rfl rfl
    · exact digestFrame_datapath s _ rfl rfl rfl rfl rfl rfl rfl rfl

@[simp] theorem hexString_length (h : Hash) : (hexString h).length = hexBytes := by simp [hexString]

/-- The hex string is written whole and the command completes, or the command ends with a bus error. -/
theorem digestHex_cases (s : State) :
    (∃ bus, digestHex s =
        digestComplete { setDeBus s bus with mem := s.mem.writeRun s.de.dst 0 (hexString s.de.h) }) ∨
    ∃ bus, digestHex s = digestBusError (setDeBus s bus) := by
  unfold digestHex
  rcases h : memStore s.mem s.de.bus s.de.dst 0 (hexString s.de.h) with ⟨_ | m, bus⟩
  · exact .inr ⟨bus, rfl⟩
  · exact .inl ⟨bus, by rw [← memStore_some h]⟩

/-- The only step of DE that writes memory outside an error; a command without HEX never takes it. -/
theorem digestHex_frame (s : State) (hx : s.de.hex = true) : DigestFrame s (digestHex s) := by
  obtain ⟨bus, h⟩ | ⟨bus, h⟩ := digestHex_cases s <;> rw [h]
  · constructor <;> try rfl
    · exact fun e => absurd (hx.symm.trans e) (by decide)
    · exact fun a ha => writeRun_outside _ _ _ _ _ fun i _ hi => ha i (by simpa using hi)
  · exact (setDeBus_frame s bus).trans (digestBusError_frame _)

/-- A turn of DE leaves alone what DE leaves alone, where the hex string is due only for a command with HEX. -/
theorem digestTurn_frame (s : State) (hp : HexPhaseOk s) : DigestFrame s (digestTurn s) := by
  unfold digestTurn
  split
  · split
    · exact digestLoad_frame s
    · split
      · exact digestRound_frame s
      · exact digestFold_frame s
    · exact digestHex_frame s (hp ‹_› ‹_›)
  · exact digestFrame_refl s

/-- A turn of DE neither reads nor changes what waits outside. -/
theorem digestTurn_inputs (s : State) (l : List Event) :
    digestTurn { s with inputs := l } = { digestTurn s with inputs := l } := by
  unfold digestTurn
  dsimp only
  split
  · split
    · unfold digestLoad; dsimp only
      rcases fetchBlock s.mem s.de.bus s.de.src s.de.len.toNat s.de.p 64 with ⟨_ | b, bus⟩ <;> rfl
    · split
      · rfl
      · unfold digestFold; dsimp only; split
        · rfl
        · split <;> rfl
    · unfold digestHex; dsimp only
      rcases memStore s.mem s.de.bus s.de.dst 0 (hexString s.de.h) with ⟨_ | b, bus⟩ <;> rfl
  · rfl

theorem digestBlocks_frame (n : Nat) (s : State) : DigestFrame s (digestBlocks n s) := by
  induction n generalizing s with
  | zero => exact digestFrame_refl s
  | succ n ih =>
    unfold digestBlocks
    dsimp only
    split
    · exact ((digestLoad_frame s).trans ((digestRounds_frame _).trans (digestFold_frame _))).trans (ih _)
    · exact digestLoad_frame s

/-- After the block loop of at least one block a command without HEX is no longer in progress, if the loop takes it
to its last block. -/
theorem digestBlocks_done (n : Nat) (s : State) (hn : 0 < n) (hb : s.de.blk + n = blockCount s.de.len.toNat)
    (hx : s.de.hex = false) : (digestBlocks n s).de.status.busy = false := by
  induction n generalizing s with
  | zero => omega
  | succ n ih =>
    unfold digestBlocks
    dsimp only
    split
    case isFalse h => simpa using h
    obtain ⟨b, bus, -, hl⟩ | ⟨bus, -, hl⟩ := digestLoad_cases s
    · have hf : DigestFrame s (digestFold (digestRounds (digestLoad s))) :=
        (digestLoad_frame s).trans ((digestRounds_frame _).trans (digestFold_frame _))
      rcases Nat.eq_zero_or_pos n with rfl | hpos
      · have h1 : ¬ (s.de.blk + 1 < blockCount s.de.len.toNat) := by omega
        simp [digestBlocks, hl, digestFold, digestRounds, digestLoaded, setDeBus, h1, hx, digestComplete]
      · refine ih _ hpos ?_ (hf.hex.trans hx)
        rw [hf.len]
        have h1 : s.de.blk + 1 < blockCount s.de.len.toNat := by omega
        simp only [hl, digestRounds, digestFold, digestFolded, digestLoaded, setDeBus, h1, if_true]
        omega
    · rename_i h
      rw [hl] at h
      simp [digestBusError] at h

/-- A started command that runs to completion leaves alone what DE leaves alone. -/
theorem digestRun_frame (s : State) (hb : s.de.blk = 0) : DigestFrame s (digestRun s) := by
  unfold digestRun
  dsimp only
  split
  · rename_i h
    refine (digestBlocks_frame _ s).trans (digestHex_frame _ ?_)
    rw [(digestBlocks_frame _ s).hex]
    by_contra hx
    rw [digestBlocks_done (blockCount s.de.len.toNat) s (Nat.succ_pos _) (by omega) (by simpa using hx)] at h
    exact absurd h (by decide)
  · exact digestBlocks_frame _ s

/-- A digest command on every path: dropped, ended by a check, refused, at fault, completed or started. -/
theorem digestCommand_cases (v hex : Bool) (s : State) :
    (s.de.status.busy = true ∧
      digestCommand v hex s = .next { s with de := { s.de with status := s.de.status.drop } }) ∨
    (s.de.status.busy = false ∧ ∃ e, digestCheck hex s.de.regs = some e ∧
      digestCommand v hex s = .next { s with de := { s.de with status := s.de.status.accept.raise e } }) ∨
    (s.de.status.busy = false ∧ digestCheck hex s.de.regs = none ∧
      (digestCommand v hex s = .refused .deviceRange ∨ digestCommand v hex s = .fault .hostContract ∨
        (s.de.pace = .whole ∧ digestCommand v hex s = .next (digestRun { s with de := digestStart v hex s.de })) ∨
        (s.de.pace = .stepped ∧ digestCommand v hex s = .next { s with de := digestStart v hex s.de }))) := by
  unfold digestCommand
  dsimp only
  cases hb : s.de.status.busy
  · right
    cases hc : digestCheck hex s.de.regs with
    | some e => exact .inl ⟨rfl, e, rfl, rfl⟩
    | none =>
      refine .inr ⟨rfl, rfl, ?_⟩
      simp only [Bool.false_eq_true, if_false]
      split
      · exact .inl rfl
      · split
        · exact .inr (.inl rfl)
        · cases hp : s.de.pace
          · exact .inr (.inr (.inl ⟨rfl, rfl⟩))
          · exact .inr (.inr (.inr ⟨rfl, rfl⟩))
  · exact .inl ⟨rfl, by simp⟩

/-- Without a bus error a fetched block is message bytes below the length and padding bytes from it on. -/
theorem fetchBlock_getD (m : Memory) {bus : List Bool} (src : Addr) (len p n : Nat) (h : quiet bus (len - p)) :
    ∃ b, fetchBlock m bus src len p n = (some b, bus.drop (min n (len - p))) ∧ b.length = n ∧
      ∀ q < n, b.getD q 0 = if p + q < len then m.read (byteAddr src (p + q)) else padByte len (p + q) := by
  induction n generalizing bus p with
  | zero => exact ⟨[], by simp [fetchBlock], rfl, fun q hq => absurd hq (by omega)⟩
  | succ n ih =>
    by_cases hp : p < len
    · have hs : len - p = len - (p + 1) + 1 := by omega
      rw [hs] at h
      obtain ⟨h0, h1⟩ := quiet_succ.mp h
      obtain ⟨b, hb, hl, hq⟩ := ih (p + 1) h1
      have hm : min (n + 1) (len - p) = min n (len - (p + 1)) + 1 := by omega
      refine ⟨m.read (byteAddr src p) :: b, by simp [fetchBlock, hp, h0, hb, hm], by simp [hl], fun q hq' => ?_⟩
      cases q with
      | zero => simp [hp]
      | succ q => simpa [Nat.add_assoc, Nat.add_comm 1 q] using hq q (by omega)
    · have h1 : quiet bus (len - (p + 1)) := fun k hk => absurd hk (by omega)
      obtain ⟨b, hb, hl, hq⟩ := ih (p + 1) h1
      have hm : min (n + 1) (len - p) = min n (len - (p + 1)) := by omega
      refine ⟨padByte len p :: b, by simp [fetchBlock, hp, hb, hm], by simp [hl], fun q hq' => ?_⟩
      cases q with
      | zero => simp [hp]
      | succ q => simpa [Nat.add_assoc, Nat.add_comm 1 q] using hq q (by omega)

end Sys2Proof.Machine
end

