-- ==== Sys2Proof/Laws/PerInstr.lean ====
section
/-! SUPPORT. Facts about every command as syntax, one lemma per constructor: the reserved bits of its word. -/

namespace Sys2Proof.Laws.ReservedZero

/-- The reserved bits of the word of a command are 0 (R72: bits 31:6; R73: bits 7:4 and 31:16). -/
def Statement (i : Instr) : Prop :=
  match i.engine with
  | .de => (encode i).extractLsb' 6 26 = 0
  | .cu => (encode i).extractLsb' 4 4 = 0 ∧ (encode i).extractLsb' 16 16 = 0

/-- A cipher word has its reserved bits 0, whatever its fields. -/
theorem cipherWord_reserved (op : BitVec 4) (ctx : Nat) :
    (cipherWord op ctx).extractLsb' 4 4 = 0 ∧ (cipherWord op ctx).extractLsb' 16 16 = 0 := by
  constructor
  · ext k hk
    simp only [cipherWord, BitVec.getElem_extractLsb', BitVec.getLsbD_append]
    simp
    omega
  · ext k hk
    simp only [cipherWord, BitVec.getElem_extractLsb', BitVec.getLsbD_append]
    have h1 : ¬ (16 + k < 4) := by omega
    have h2 : ¬ (16 + k - 4 < 4) := by omega
    have h3 : ¬ (16 + k - 4 - 4 < 8) := by omega
    simp [h1, h2, h3]

theorem sha0Digest : Statement .sha0Digest := by simp only [Statement, Instr.engine]; decide
theorem sha1Digest : Statement .sha1Digest := by simp only [Statement, Instr.engine]; decide
theorem sha0Hex : Statement .sha0Hex := by simp only [Statement, Instr.engine]; decide
theorem sha1Hex : Statement .sha1Hex := by simp only [Statement, Instr.engine]; decide
theorem rc4New (ctx : Nat) : Statement (.rc4New ctx) := cipherWord_reserved _ ctx
theorem rc4Xform (ctx : Nat) : Statement (.rc4Xform ctx) := cipherWord_reserved _ ctx
theorem rc4Free (ctx : Nat) : Statement (.rc4Free ctx) := cipherWord_reserved _ ctx

end Sys2Proof.Laws.ReservedZero
end

