-- ==== Sys2Proof/Tests/Slice0.lean ====
section
/-! SUPPORT. Small tests. Every expected value comes from the spec: the encoding tables of spec/30, the rules, and the
vectors of spec/95 (the section is named at each test). The last part shows, for each statement with hypotheses, a
state and operands that meet them. -/

namespace Sys2Proof.Tests

open Sys2Proof.Machine

set_option maxRecDepth 20000

/-! Well-formedness: an ill-formed term for the one check (CTX is 8 bits, R73). -/

theorem test_wellFormed_new_refuses_256 : (Instr.rc4New 256).wellFormed = false := by decide
theorem test_wellFormed_xform_refuses_256 : (Instr.rc4Xform 256).wellFormed = false := by decide
theorem test_wellFormed_free_refuses_1000 : (Instr.rc4Free 1000).wellFormed = false := by decide
theorem test_wellFormed_accepts_255 : (Instr.rc4New 255).wellFormed = true := by decide

/-! Decoding: words written out bit by bit from R72 and R73. -/

theorem test_decode_sha0Digest : decode .de 0b00000000000000000000000000000001 = .ok .sha0Digest := by decide
theorem test_decode_sha1Digest : decode .de 0b00000000000000000000000000010001 = .ok .sha1Digest := by decide
theorem test_decode_sha0Hex : decode .de 0b00000000000000000000000000100001 = .ok .sha0Hex := by decide
theorem test_decode_sha1Hex : decode .de 0b00000000000000000000000000110001 = .ok .sha1Hex := by decide
theorem test_decode_rc4New : decode .cu 0b00000000000000000000010100000001 = .ok (.rc4New 5) := by decide
theorem test_decode_rc4Xform : decode .cu 0b00000000000000001000000000000010 = .ok (.rc4Xform 128) := by decide
theorem test_decode_rc4Free : decode .cu 0b00000000000000001111111100000011 = .ok (.rc4Free 255) := by decide
theorem test_decode_digest_op0 : decode .de 0x00000000 = .error .digestOp := by decide
theorem test_decode_digest_bit31 : decode .de 0x80000011 = .error .digestReserved := by decide
theorem test_decode_cipher_op4 : decode .cu 0x00000004 = .error .cipherOp := by decide
theorem test_decode_cipher_bit4 : decode .cu 0x00000011 = .error .cipherReservedLow := by decide
theorem test_decode_cipher_bit16 : decode .cu 0x00010001 = .error .cipherReservedHigh := by decide
theorem test_table_word_1 : decodeTableWord 32 0x00000001 = some .sha0Digest := by decide
theorem test_table_word_new_ctx5 : decodeTableWord 32 0x00000501 = some (.rc4New 5) := by decide
theorem test_table_word_illegal : decodeTableWord 32 0x00000041 = none := by decide

/-! SHA (spec/95 sections 1 and 2). -/

theorem test_padZeros : [0, 3, 55, 56, 63, 64, 119, 120].map padZeros = [55, 52, 0, 63, 56, 55, 0, 63] := by decide
theorem test_blockCount : [0, 3, 55, 56, 63, 64, 119, 120].map blockCount = [1, 1, 1, 2, 2, 2, 2, 3] := by decide
theorem test_lengthField_120 : lengthField 120 = [0, 0, 0, 0, 0, 0, 0x03, 0xc0] := by decide
theorem test_schedule_sha0 : wordAt (schedule false (pad [0x61, 0x62, 0x63])) 16 = 0x61626380 := by decide +kernel
theorem test_schedule_sha1 : wordAt (schedule true (pad [0x61, 0x62, 0x63])) 16 = 0xc2c4c700 := by decide +kernel
theorem test_sha0_abc :
    sha false [0x61, 0x62, 0x63] = ⟨0x0164b8a9, 0x14cd2a5e, 0x74c4f7ff, 0x082c4d97, 0xf1edf880⟩ := by decide +kernel
theorem test_sha1_abc :
    sha true [0x61, 0x62, 0x63] = ⟨0xa9993e36, 0x4706816a, 0xba3e2571, 0x7850c26c, 0x9cd0d89d⟩ := by decide +kernel
theorem test_hex_leading_zero :
    (hexString ⟨0x0164b8a9, 0, 0, 0, 0⟩).take 8 = [0x30, 0x31, 0x36, 0x34, 0x62, 0x38, 0x61, 0x39] := by decide

/-! RC4 (spec/95 section 3). -/

theorem test_rc4_key_plaintext :
    transform (keyedContext [0x4b, 0x65, 0x79] 3) [0x50, 0x6c, 0x61] = [0xbb, 0xf3, 0x16] := by decide +kernel
theorem test_ksa_first_iterations :
    ((List.range 4).foldl (ksaStep [0x4b, 0x65, 0x79] 3) (identityBox, 0)).2 = 122 := by decide +kernel

/-! Memory. -/

theorem test_write_of_unlisted_removes : Memory.write [(5, 7)] 5 0 = [] := by decide
theorem test_write_keeps_order : Memory.write [(5, 7), (9, 1)] 6 2 = [(5, 7), (6, 2), (9, 1)] := by decide

/-! States for the command tests. -/

/-- DE's parameter registers set, on the reset state with "abc" at 0x1000. -/
def deState (src len dst : Addr) (pace : Pace) (bus : List Bool) : State :=
  { State.reset with
    mem := [(0x1000, 0x61), (0x1001, 0x62), (0x1002, 0x63)]
    de := { DigestEngine.reset with
      regs := { srcLo := src.extractLsb' 0 32, srcHi := src.extractLsb' 32 32, lenLo := len.extractLsb' 0 32,
                lenHi := len.extractLsb' 32 32, dstLo := dst.extractLsb' 0 32, dstHi := dst.extractLsb' 32 32 }
      pace := pace
      bus := bus } }

/-- CU's parameter registers set, on the reset state with a key at 0x3000; context 0 valid or not. -/
def cuState (src len dst : Addr) (valid : Bool) (pace : Pace) (bus : List Bool) : State :=
  { State.reset with
    mem := [(0x3000, 0x4b), (0x3001, 0x65), (0x3002, 0x79)]
    cu := { CipherUnit.reset.setContext 0 { sbox := identityBox, i := 0, j := 0, valid := valid } with
      regs := { srcLo := src.extractLsb' 0 32, srcHi := src.extractLsb' 32 32, lenLo := len.extractLsb' 0 32,
                lenHi := len.extractLsb' 32 32, dstLo := dst.extractLsb' 0 32, dstHi := dst.extractLsb' 32 32 }
      pace := pace
      bus := bus } }

/-- A state with DE's status replaced. -/
def withDeStatus (s : State) (st : Status) : State := { s with de := { s.de with status := st } }

/-- A state with CU's status replaced. -/
def withCuStatus (s : State) (st : Status) : State := { s with cu := { s.cu with status := st } }

/-- STATUS of a running command. -/
def busyStatus : Status := { busy := true, done := false, err := false, ovr := false, errCode := 0 }

/-- A live context. -/
def liveContext : Context := { sbox := identityBox, i := 0, j := 0, valid := true }

/-- Contexts 0 and 2 are keyed. -/
def keyedTwo : State :=
  { State.reset with cu := (CipherUnit.reset.setContext 0 liveContext).setContext 2 liveContext }

/-- What DE_STATUS reads after an outcome; all ones if there is no next state. -/
def deView (o : Host.Outcome State Fault Refusal) : Word :=
  match o with
  | .next t => t.de.status.view
  | .fault _ => 0xFFFFFFFF
  | .refused _ => 0xFFFFFFFF

/-- What CU_STATUS reads after an outcome; all ones if there is no next state. -/
def cuView (o : Host.Outcome State Fault Refusal) : Word :=
  match o with
  | .next t => t.cu.status.view
  | .fault _ => 0xFFFFFFFF
  | .refused _ => 0xFFFFFFFF

/-- The read data after an outcome. -/
def readData (o : Host.Outcome State Fault Refusal) : Word :=
  match o with
  | .next t => t.rdata
  | .fault _ => 0xFFFFFFFF
  | .refused _ => 0xFFFFFFFF

/-- One step with one input. -/
def feed (e : Event) (s : State) : Host.Outcome State Fault Refusal := step { s with inputs := [e] }

/-! The digest checks (spec/95 section 2.6). -/

theorem test_sha1Digest_length : deView (exec .sha1Digest (deState 1 0x2000000000000000 0 .whole [])) = 0x00000204 := by
  decide
theorem test_sha1Digest_range : deView (exec .sha1Digest (deState 0xFFFFFFFFFFFFFFFF 2 0 .whole [])) = 0x00000304 := by
  decide
theorem test_sha0Digest_length_before_range :
    deView (exec .sha0Digest (deState 1 0xFFFFFFFFFFFFFFFF 0 .whole [])) = 0x00000204 := by decide
theorem test_sha0Digest_accepted_at_top :
    deView (exec .sha0Digest (deState 0xFFFFFFFFFFFFFFFF 1 0 .stepped [])) = 0x00000001 := by decide
theorem test_sha1Hex_range : deView (exec .sha1Hex (deState 0 0 0xFFFFFFFFFFFFFFD9 .whole [])) = 0x00000304 := by decide
theorem test_sha1Hex_accepted_at_top :
    deView (exec .sha1Hex (deState 0 0 0xFFFFFFFFFFFFFFD8 .stepped [])) = 0x00000001 := by decide
theorem test_sha0Hex_bus : deView (exec .sha0Hex (deState 0x1000 3 0x2000 .whole [true])) = 0x00000404 := by decide
theorem test_sha0Hex_dropped :
    deView (exec .sha0Hex (withDeStatus (deState 0 0 0 .whole []) busyStatus)) = 0x00000009 := by decide
theorem test_digest_illegal : deView (feed (cmdWrite .de 0x00000041) State.reset) = 0x00000104 := by decide
theorem test_digest_illegal_keeps_ovr :
    deView (feed (cmdWrite .de 0) (withDeStatus State.reset { busyStatus with busy := false, ovr := true })) =
      0x0000010C := by decide

/-! The cipher checks (spec/95 section 3.4, N_CTX = 4). -/

theorem test_new_ctx_range : cuView (exec (.rc4New 4) (cuState 0x3000 3 0 false .whole [])) = 0x00000604 := by decide
theorem test_new_active_before_empty : cuView (exec (.rc4New 0) (cuState 0 0 0 true .whole [])) = 0x00000804 := by decide
theorem test_new_key_empty : cuView (exec (.rc4New 0) (cuState 0 0 0 false .whole [])) = 0x00000504 := by decide
theorem test_new_long_key_accepted :
    cuView (exec (.rc4New 0) (cuState 0xFFFFFFFFFFFFFF00 1000 0 false .stepped [])) = 0x00000001 := by decide
theorem test_new_range : cuView (exec (.rc4New 0) (cuState 0xFFFFFFFFFFFFFF01 256 0 false .whole [])) = 0x00000304 := by
  decide
theorem test_xform_invalid : cuView (exec (.rc4Xform 0) (cuState 0 0 0 false .whole [])) = 0x00000704 := by decide
theorem test_xform_empty :
    cuView (exec (.rc4Xform 0) (cuState 0xFFFFFFFFFFFFFFFF 0 0xFFFFFFFFFFFFFFFF true .whole [])) = 0x00000002 := by decide
/-- R30: an accepted command's operands are copied, also those of an empty transform. -/
theorem test_xform_empty_latches :
    ∃ t, exec (.rc4Xform 0) (cuState 0x3000 0 0x4000 true .whole []) = .next t ∧
      t.cu.op = .xform ∧ t.cu.src = 0x3000 ∧ t.cu.dst = 0x4000 := ⟨_, rfl, rfl, rfl, rfl⟩
theorem test_xform_range : cuView (exec (.rc4Xform 0) (cuState 0xFFFFFFFFFFFFFFFF 2 0 true .whole [])) = 0x00000304 := by
  decide
theorem test_xform_overlap : cuView (exec (.rc4Xform 0) (cuState 0x1000 4 0x1001 true .whole [])) = 0x00000904 := by decide
theorem test_xform_adjacent : cuView (exec (.rc4Xform 0) (cuState 0x1000 4 0x1004 true .stepped [])) = 0x00000001 := by
  decide
theorem test_free_idempotent : cuView (exec (.rc4Free 0) (cuState 0 0 0 false .whole [])) = 0x00000002 := by decide
theorem test_free_ctx_255 : cuView (exec (.rc4Free 255) (cuState 0 0 0 true .whole [])) = 0x00000604 := by decide

/-! STATUS, registers and the host's accesses (spec/95 section 4; R32, R46, R56, R68). -/

theorem test_status_clear_error :
    deView (feed (.regWrite 0x004 32 4) (withDeStatus State.reset
      { busy := false, done := false, err := true, ovr := false, errCode := 1 })) = 0 := by decide
theorem test_status_write_2_keeps_error :
    deView (feed (.regWrite 0x004 32 2) (withDeStatus State.reset
      { busy := false, done := false, err := true, ovr := false, errCode := 1 })) = 0x00000104 := by decide
theorem test_status_clear_ovr :
    cuView (feed (.regWrite 0x104 32 0xE) (withCuStatus State.reset { busyStatus with ovr := true })) = 0x00000001 := by
  decide
theorem test_engParam : readData (feed (.regRead 0x1F4 32) State.reset) = 0x00000704 := by decide
theorem test_unmapped_reads_0 : readData (feed (.regRead 0x034 32) State.reset) = 0 := by decide
theorem test_cuValid : readData (feed (.regRead 0x120 32) keyedTwo) = 0x00000005 := by decide
theorem test_narrow_access_faults : feed (.regRead 0x004 16) State.reset = .fault .hostBadAccess := rfl
theorem test_host_write_into_message_faults :
    feed (.memWrite 0x1001 0) (withDeStatus { deState 0 0 0 .stepped [] with
      de := { DigestEngine.reset with src := 0x1000, len := 3 } } busyStatus) = .fault .hostContract := rfl

/-! A word of the opcode table runs as the first command after reset. -/

theorem test_fetch_sha1Hex : deView (step ((deState 0 0 0 .stepped []).withFetchWord 32 0x31)) = 0x00000001 := by decide
theorem test_fetch_free : cuView (step (State.reset.withFetchWord 32 0x00000303)) = 0x00000002 := by decide

/-! Witnesses: a state and operands that meet the hypotheses of each statement that has some. -/

theorem witness_DecodeOfEncodeIsTheCommand : (Instr.rc4Xform 255).wellFormed = true := by decide
theorem witness_EncodeOfDecodeIsTheWord : decode .cu 0x0000ff02 = .ok (.rc4Xform 255) := by decide
theorem witness_IllegalWords_digest :
    (∀ i, decode .de 0x00000041 ≠ .ok i) ∧ State.reset.de.status.busy = false := by
  refine ⟨fun i h => ?_, rfl⟩
  rw [show decode .de 0x00000041 = .error .digestReserved by decide] at h
  cases h
theorem witness_IllegalWords_cipher :
    (∀ i, decode .cu 0x00000000 ≠ .ok i) ∧ State.reset.cu.status.busy = false := by
  refine ⟨fun i h => ?_, rfl⟩
  rw [show decode .cu 0x00000000 = .error .cipherOp by decide] at h
  cases h
theorem witness_IllegalWords_ctxRange :
    State.reset.cu.status.busy = false ∧ nCtx State.reset.params ≤ 4 := by decide
theorem witness_StepRunsTheCommandWritten : decode .de 0x00000031 = .ok .sha1Hex := by decide
theorem witness_BusyUnitDropsTheWrite :
    (withDeStatus State.reset busyStatus).de.status.busy = true ∧
      (withCuStatus State.reset busyStatus).cu.status.busy = true := by decide

/-- A message of 3 bytes with one draw for each access, none a bus error. -/
theorem witness_DigestCommandsLeaveTheDigest :
    DigestAccepted false (deState 0x1000 3 0 .whole [false, false, false]) ∧
      (deState 0x1000 3 0 .whole [false, false, false]).de.pace = .whole ∧
      quiet [false, false, false] (digestAccesses false (deState 0x1000 3 0 .whole []).de.regs.len) :=
  ⟨by constructor <;> decide, rfl, by decide⟩
/-- The boundary: a message whose last byte is the last byte of memory. -/
theorem witness_digest_at_top : DigestAccepted false (deState 0xFFFFFFFFFFFFFFFF 1 0 .whole []) := by
  constructor <;> decide
/-- The hex string over its message, and at the top of memory. -/
theorem witness_HexCommandsWriteTheHexString :
    DigestAccepted true (deState 0x1000 3 0x1001 .whole []) ∧
      DigestAccepted true (deState 0 0 0xFFFFFFFFFFFFFFD8 .whole []) ∧
      quiet [] (digestAccesses true (deState 0x1000 3 0x1001 .whole []).de.regs.len) :=
  ⟨by constructor <;> decide, by constructor <;> decide, by decide⟩
theorem witness_DigestChecks_length :
    maxMsgLen < (deState 0 0x2000000000000000 0 .whole []).de.regs.len.toNat := by decide
theorem witness_DigestChecks_source :
    (deState 0xFFFFFFFFFFFFFFFF 2 0 .whole []).de.regs.len.toNat ≤ maxMsgLen ∧
      0 < (deState 0xFFFFFFFFFFFFFFFF 2 0 .whole []).de.regs.len.toNat ∧
      ¬ fits (deState 0xFFFFFFFFFFFFFFFF 2 0 .whole []).de.regs.src 2 := by decide
theorem witness_DigestChecks_dest :
    (deState 0 0 0xFFFFFFFFFFFFFFD9 .whole []).de.regs.len.toNat ≤ maxMsgLen ∧
      ¬ fits (deState 0 0 0xFFFFFFFFFFFFFFD9 .whole []).de.regs.dst hexBytes := by decide
/-- A bus error on the last message byte, and on the last hex byte. -/
theorem witness_DigestBusErrorEndsTheCommand :
    DigestAccepted true (deState 0x1000 3 0x2000 .whole [false, false, true]) ∧
      ¬ quiet [false, false, true] (digestAccesses true (deState 0x1000 3 0x2000 .whole []).de.regs.len) ∧
      ¬ quiet (List.replicate 42 false ++ [true]) (digestAccesses true (deState 0x1000 3 0x2000 .whole []).de.regs.len) :=
  ⟨by constructor <;> decide, by decide, by decide⟩
theorem witness_DigestCommandsFrame : ∃ t, exec .sha1Hex (deState 0x1000 3 0x2000 .whole []) = .next t := ⟨_, rfl⟩
theorem witness_AcceptedDigestCommandIsInProgress :
    DigestAccepted true (deState 0x1000 3 0x2000 .stepped []) ∧ (deState 0x1000 3 0x2000 .stepped []).de.pace = .stepped :=
  ⟨by constructor <;> decide, rfl⟩
/-- Two memories that agree on the message and differ outside it. -/
theorem witness_DigestReadsOnlyItsMessage :
    (∀ k < 3, Memory.read (Memory.write (deState 0x1000 3 0 .whole []).mem 0x1003 9) (byteAddr 0x1000 k) =
      Memory.read (deState 0x1000 3 0 .whole []).mem (byteAddr 0x1000 k)) ∧
      ∃ t, exec .sha0Digest (deState 0x1000 3 0 .whole []) = .next t := ⟨by decide, _, rfl⟩
theorem witness_DigestIgnoresTheCipherUnit :
    (∃ t, exec .sha0Hex (deState 0x1000 3 0 .stepped []) = .next t) ∧
      ∃ t, exec .sha0Hex { deState 0x1000 3 0 .stepped [] with cu := (cuState 0 5 7 true .whole []).cu } = .next t :=
  ⟨⟨_, rfl⟩, ⟨_, rfl⟩⟩

theorem witness_NewKeysTheContext :
    NewAccepted 3 (cuState 0x3000 3 0 true .whole [false, false, false]) ∧
      quiet [false, false, false] (keyUsed (cuState 0x3000 3 0 true .whole []).cu.regs.len) :=
  ⟨⟨by constructor <;> decide, by decide, by decide, by decide⟩, by decide⟩
/-- The boundary: a long key whose last used byte is the last byte of memory. -/
theorem witness_new_at_top : NewAccepted 0 (cuState 0xFFFFFFFFFFFFFF00 1000 0 false .whole []) :=
  ⟨by constructor <;> decide, by decide, by decide, by decide⟩
/-- In place, disjoint and adjacent. -/
theorem witness_XformXorsTheKeystream :
    XformAccepted 0 (cuState 0x3000 3 0x3000 true .whole []) ∧ XformAccepted 0 (cuState 0x3000 3 0x3003 true .whole []) ∧
      XformAccepted 0 (cuState 0xFFFFFFFFFFFFFFFD 3 0xFFFFFFFFFFFFFFFD true .whole []) ∧ quiet [] 6 :=
  ⟨⟨by constructor <;> decide, by decide, by decide, by decide, by decide, by decide⟩,
    ⟨by constructor <;> decide, by decide, by decide, by decide, by decide, by decide⟩,
    ⟨by constructor <;> decide, by decide, by decide, by decide, by decide, by decide⟩, by decide⟩
theorem witness_EmptyXformChangesNoContext :
    (cuState 0 0 0 true .stepped []).cu.status.busy = false ∧ 0 < nCtx State.reset.params ∧
      ((cuState 0 0 0 true .stepped []).cu.context 0).valid = true ∧ (cuState 0 0 0 true .stepped []).cu.regs.len = 0 := by
  decide
theorem witness_FreeInvalidatesTheContext :
    (cuState 0 0 0 true .whole []).cu.status.busy = false ∧ 3 < nCtx State.reset.params ∧
      (cuState 0 0 0 true .whole []).cu.pace = .whole := by decide
theorem witness_CipherChecks_new :
    ((cuState 0 0 0 true .whole []).cu.context 0).valid = true ∧ ((cuState 0 0 0 true .whole []).cu.context 1).valid = false ∧
      (cuState 0 0 0 true .whole []).cu.regs.len = 0 := by decide
theorem witness_CipherChecks_newRange :
    0 < (cuState 0xFFFFFFFFFFFFFF01 256 0 false .whole []).cu.regs.len.toNat ∧
      ¬ fits (cuState 0xFFFFFFFFFFFFFF01 256 0 false .whole []).cu.regs.src
        (keyUsed (cuState 0xFFFFFFFFFFFFFF01 256 0 false .whole []).cu.regs.len) := by decide
theorem witness_CipherChecks_xformRange :
    ¬ fits (cuState 0xFFFFFFFFFFFFFFFF 2 0 true .whole []).cu.regs.src 2 ∧
      ¬ fits (cuState 0 2 0xFFFFFFFFFFFFFFFF true .whole []).cu.regs.dst 2 := by decide
theorem witness_CipherChecks_overlap :
    fits (cuState 0x1000 4 0x1003 true .whole []).cu.regs.src 4 ∧ fits (cuState 0x1000 4 0x1003 true .whole []).cu.regs.dst 4 ∧
      ¬ placed (cuState 0x1000 4 0x1003 true .whole []).cu.regs.src (cuState 0x1000 4 0x1003 true .whole []).cu.regs.dst 4 := by
  decide
theorem witness_CipherBusError_new :
    NewAccepted 0 (cuState 0x3000 3 0 false .whole [false, false, true]) ∧ ¬ quiet [false, false, true] 3 :=
  ⟨⟨by constructor <;> decide, by decide, by decide, by decide⟩, by decide⟩
/-- A bus error on the write of the last byte. -/
theorem witness_CipherBusError_xform :
    XformAccepted 0 (cuState 0x3000 3 0x3003 true .whole [false, false, false, false, false, true]) ∧
      ¬ quiet [false, false, false, false, false, true] 6 :=
  ⟨⟨by constructor <;> decide, by decide, by decide, by decide, by decide, by decide⟩, by decide⟩
theorem witness_CipherCommandsFrame : ∃ t, exec (.rc4Xform 0) (cuState 0x3000 3 0x3003 true .whole []) = .next t := ⟨_, rfl⟩
theorem witness_AcceptedCipherCommandIsInProgress :
    (cuState 0x3000 3 0x3003 true .stepped []).cu.pace = .stepped ∧ NewAccepted 1 (cuState 0x3000 3 0x3003 true .stepped []) ∧
      XformAccepted 0 (cuState 0x3000 3 0x3003 true .stepped []) ∧
      CipherAccepted .free 2 (cuState 0x3000 3 0x3003 true .stepped []) :=
  ⟨rfl, ⟨by constructor <;> decide, by decide, by decide, by decide⟩,
    ⟨by constructor <;> decide, by decide, by decide, by decide, by decide, by decide⟩, by constructor <;> decide⟩
theorem witness_NewReadsOnlyTheKeyBytesUsed :
    (∀ k < 3, Memory.read (Memory.write (cuState 0x3000 3 0 false .whole []).mem 0x3003 9) (byteAddr 0x3000 k) =
      Memory.read (cuState 0x3000 3 0 false .whole []).mem (byteAddr 0x3000 k)) ∧
      ∃ t, exec (.rc4New 0) (cuState 0x3000 3 0 false .whole []) = .next t := ⟨by decide, _, rfl⟩
theorem witness_CipherIgnoresTheDigestEngine :
    (∃ t, exec (.rc4Free 1) (cuState 0 0 0 true .whole []) = .next t) ∧
      ∃ t, exec (.rc4Free 1) { cuState 0 0 0 true .whole [] with de := (deState 1 2 3 .stepped []).de } = .next t :=
  ⟨⟨_, rfl⟩, ⟨_, rfl⟩⟩

theorem witness_ParameterRegisters : (0x01C : BitVec 9) ∈ paramOffsets ∧ (0x11C : BitVec 9) ∈ paramOffsets ∧
    (0x020 : BitVec 9) ≠ 0x01C := by decide
theorem witness_ReadOnlyAndUnmapped :
    aligned 0x120 ∧ (0x120 : BitVec 9) ∈ readOnlyOffsets ∧ aligned 0x1FC ∧ unmapped 0x1FC ∧ unmapped 0x034 := by decide
theorem witness_BadRegisterAccess : (8 ≠ 32) ∧ ¬ aligned 0x003 := by decide
theorem witness_RegisterRead : aligned 0x000 ∧ aligned 0x100 ∧ aligned 0x1FC := by decide
theorem witness_CuValid :
    (31 < 32) ∧ nCtx State.reset.params ≤ 31 ∧ 0 < nCtx State.reset.params ∧ State.reset.cu.status.busy = false ∧
      (1 : Nat) ≠ (withCuStatus State.reset busyStatus).cu.ctx.toNat := by decide
theorem witness_DigestRegisters : State.reset.de.status.busy = false := rfl

/-- DE runs a .HEX command: it reads 0x1000..0x1002 and writes 0x2000..0x2027. -/
def hexRunning : State :=
  { State.reset with
    de := { DigestEngine.reset with status := busyStatus, src := 0x1000, len := 3, dst := 0x2000, hex := true } }

/-- CU runs RC4.XFORM: it reads 0x1000..0x1002 and writes 0x2000..0x2002. -/
def xformRunning : State :=
  { State.reset with
    cu := { CipherUnit.reset with status := busyStatus, op := .xform, src := 0x1000, len := 3, dst := 0x2000 } }

theorem witness_HostContract_write :
    ¬ covered hexRunning.devices 0x1002 ∧
      covered (hexRunning.de.reads ++ hexRunning.de.writes ++ hexRunning.cu.reads ++ hexRunning.cu.writes) 0x1002 := by
  decide
theorem witness_HostContract_read :
    ¬ covered hexRunning.devices 0x2027 ∧ covered (hexRunning.de.writes ++ hexRunning.cu.writes) 0x2027 := by decide
/-- A digest command that reads what CU's command in progress writes. -/
theorem witness_HostContract_digest :
    digestCheck false (deState 0x2002 1 0 .whole []).de.regs = none ∧
      covered (digestReads 0x2002 1) 0x2002 ∧ covered xformRunning.cu.writes 0x2002 := by decide
/-- A transform that writes what DE's command in progress reads. -/
theorem witness_HostContract_cipher :
    cipherCheck .xform 0 4 (cuState 0x3000 3 0x1000 true .whole []).cu = none ∧
      covered (cipherWrites .xform 0x1000 3) 0x1002 ∧ covered (hexRunning.de.reads ++ hexRunning.de.writes) 0x1002 := by
  decide
/-- The last byte of a hex string is a device's. -/
def digestAtDevice : State := { deState 0x1000 3 0x2000 .whole [] with devices := [⟨0x2027, 1⟩] }

/-- The last byte of a key is a device's. -/
def keyAtDevice : State := { cuState 0x3000 3 0 false .whole [] with devices := [⟨0x3002, 1⟩] }

theorem witness_DeviceRanges_digest :
    digestAtDevice.de.status.busy = false ∧ digestCheck true digestAtDevice.de.regs = none ∧
      covered (digestReads digestAtDevice.de.regs.src digestAtDevice.de.regs.len ++
        digestWrites true digestAtDevice.de.regs.dst) 0x2027 ∧ covered digestAtDevice.devices 0x2027 := by decide
theorem witness_DeviceRanges_cipher :
    keyAtDevice.cu.status.busy = false ∧ cipherCheck .new 0 (nCtx keyAtDevice.params) keyAtDevice.cu = none ∧
      covered (cipherReads .new keyAtDevice.cu.regs.src keyAtDevice.cu.regs.len ++
        cipherWrites .new keyAtDevice.cu.regs.dst keyAtDevice.cu.regs.len) 0x3002 ∧
      covered keyAtDevice.devices 0x3002 := by decide
theorem witness_HostMemoryAccesses :
    ¬ covered hexRunning.devices 0x1003 ∧
      ¬ covered (hexRunning.de.reads ++ hexRunning.de.writes ++ hexRunning.cu.reads ++ hexRunning.cu.writes) 0x1003 ∧
      ¬ covered (hexRunning.de.writes ++ hexRunning.cu.writes) 0x1000 := by decide
/-- An address outside the output of both commands in progress. -/
theorem witness_ResetRestoresTheBlock :
    outside hexRunning.de.dst hexBytes 0x2028 ∧ outside xformRunning.cu.dst xformRunning.cu.len.toNat 0x2003 := by decide
theorem witness_ResetStateReadsZero : (0x120 : BitVec 9) ≠ 0x1F0 ∧ (0x120 : BitVec 9) ≠ 0x1F4 := by decide
theorem witness_StepKeepsStatusConsistent :
    busyStatus.Ok ∧ (Status.failed busyStatus .overlap).Ok ∧ Status.reset.Ok := by
  refine ⟨⟨by decide, by decide, by decide, fun h => absurd h (by decide)⟩,
    ⟨by decide, by decide, by decide, fun _ => ⟨.overlap, rfl⟩⟩,
    ⟨by decide, by decide, by decide, fun h => absurd h (by decide)⟩⟩
theorem witness_StepKeepsMemoryCanonical : (deState 0 0 0 .whole []).mem.wf := by decide
theorem witness_StepKeepsContextsPermutations : ContextsOk State.reset := by
  refine ⟨fun c hc h => ?_, by decide, fun h => absurd h (by decide)⟩
  exact absurd h (by revert c; decide)
theorem witness_StepKeepsBuffersSound : BuffersOk hexRunning ∧ BuffersOk xformRunning := by
  refine ⟨⟨fun r hr => ?_, by decide⟩, ⟨fun r hr => ?_, by decide⟩⟩
  · fin_cases hr <;> simp [Range.inMemory, hexBytes, hexRunning]
  · fin_cases hr <;> simp [Range.inMemory, xformRunning]
theorem witness_IdleUnitsDoNothing : State.reset.idle ∧ State.reset.inputs = [] := by decide
/-- DE is idle while CU's command is given a turn. -/
theorem witness_IdleUnits_de :
    xformRunning.de.status.busy = false ∧
      (∀ o bits v, ({ xformRunning with inputs := [.cuTurn] } : State).inputs.head? = some (.regWrite o bits v) → 0x100 ≤ o) ∧
      ∃ t, step { xformRunning with inputs := [.cuTurn] } = .next t := ⟨rfl, by simp, _, rfl⟩
/-- CU is idle while the highest register offset of DE's half is written. -/
theorem witness_IdleUnits_cu :
    hexRunning.cu.status.busy = false ∧
      (∀ o bits v, ({ hexRunning with inputs := [.regWrite 0x0FC 32 1] } : State).inputs.head? =
        some (.regWrite o bits v) → o < 0x100) ∧
      ∃ t, step { hexRunning with inputs := [.regWrite 0x0FC 32 1] } = .next t :=
  ⟨rfl, fun o _ _ h => by cases h; decide, _, rfl⟩
theorem witness_TurnsRunTheUnits :
    hexRunning.inputs = [] ∧ hexRunning.de.status.busy = true ∧ xformRunning.inputs = [] ∧
      xformRunning.de.status.busy = false := by decide
/-- A command without HEX in its rounds, and the boundary addresses of the hex string. -/
theorem witness_DigestTurnFrame :
    HexPhaseOk { hexRunning with de := { hexRunning.de with hex := false, phase := .rounds } } ∧
      outside hexRunning.de.dst hexBytes 0x1FFF ∧ outside hexRunning.de.dst hexBytes 0x2028 :=
  ⟨fun _ h => absurd h (by decide), by decide, by decide⟩
/-- Another context, and the boundary addresses of the output. -/
theorem witness_CipherTurnFrame :
    slot 1 ≠ slot xformRunning.cu.ctx.toNat ∧ outside xformRunning.cu.dst xformRunning.cu.len.toNat 0x1FFF ∧
      outside xformRunning.cu.dst xformRunning.cu.len.toNat 0x2003 ∧ State.reset.cu.op ≠ .xform := by decide
theorem witness_StepKeepsHexPhase : HexPhaseOk hexRunning ∧ ∃ t, step hexRunning = .next t :=
  ⟨fun _ _ => rfl, _, rfl⟩
theorem witness_EveryCommandInProgressCompletes : hexRunning.inputs = [] ∧ xformRunning.inputs = [] := by decide
theorem witness_PaddingBytes : 63 < 64 * blockCount ([] : List Byte).length := by decide
theorem witness_LengthField : 2 ^ 61 - 1 ≤ maxMsgLen := by decide
theorem witness_KeyScheduleIsPeriodic : 0 < ([0x00] : List Byte).length := by decide
theorem witness_HexStringTellsTheDigest : hexString Hash.iv = hexString Hash.iv := rfl

end Sys2Proof.Tests
end

section
/-! Proofs of the statements on scope (spec/00): the units' turns and their frames, the HOST's memory accesses, and
that a command of one unit reads no state of the other. -/

namespace Sys2Proof.Machine

/-! ### Steps that are turns -/

@[simp] theorem step_deTurn (s : State) (rest : List Event) :
    step { s with inputs := .deTurn :: rest } = .next (digestTurn { s with inputs := rest }) := rfl

@[simp] theorem step_cuTurn (s : State) (rest : List Event) :
    step { s with inputs := .cuTurn :: rest } = .next (cipherTurn { s with inputs := rest }) := rfl

/-- With nothing waiting a step is the idle turn (R152). -/
theorem step_noInput {s : State} (h : s.inputs = []) : step s = .next (idleTurn s) := by
  unfold step
  rw [h]

theorem idleTurn_deBusy {s : State} (h : s.de.status.busy = true) : idleTurn s = digestTurn s := if_pos h

theorem idleTurn_deIdle {s : State} (h : s.de.status.busy = false) : idleTurn s = cipherTurn s :=
  if_neg (by simp [h])

/-- Settles O56: the order of the cases is that of `perform` and `idleTurn`. -/
theorem turnsRunTheUnits : Obligations.TurnsRunTheUnits := by
  refine ⟨step_deTurn, step_cuTurn, fun s hin hbusy => ?_, fun s hin hidle => ?_⟩
  · rw [step_noInput hin, idleTurn_deBusy hbusy]
  · rw [step_noInput hin, idleTurn_deIdle hidle]

/-! ### The frames of the turns -/

/-- A turn of DE keeps DE's frame, or writes the whole hex string. Only the second is out of reach of
`digestTurn_frame`: a state outside `HexPhaseOk` may take it without HEX. -/
theorem digestTurn_cases (s : State) :
    DigestFrame s (digestTurn s) ∨
    (s.de.status.busy = true ∧ s.de.phase = .hex ∧ ∃ bus, digestTurn s =
      digestComplete { setDeBus s bus with mem := s.mem.writeRun s.de.dst 0 (hexString s.de.h) }) := by
  by_cases hdue : s.de.status.busy = true ∧ s.de.phase = .hex
  · obtain ⟨hbusy, hphase⟩ := hdue
    have hturn : digestTurn s = digestHex s := by simp [digestTurn, hbusy, hphase]
    rw [hturn]
    obtain ⟨bus, h⟩ | ⟨bus, h⟩ := digestHex_cases s
    · exact .inr ⟨hbusy, hphase, bus, h⟩
    · rw [h]
      exact .inl ((setDeBus_frame s bus).trans (digestBusError_frame _))
  · exact .inl (digestTurn_frame s fun hbusy hphase => absurd ⟨hbusy, hphase⟩ hdue)

/-- The hex string changes no byte outside the 40 from its address (R97). -/
theorem hexString_outside (m : Memory) (dst : Addr) (h : Hash) :
    sameOutside m (m.writeRun dst 0 (hexString h)) dst hexBytes := fun a ha =>
  writeRun_outside m dst 0 (hexString h) a fun i _ hi => ha i (by simpa using hi)

/-- Settles O57: DE's frame, and for the hex string that it is written inside its 40 bytes. -/
theorem digestTurnFrame : Obligations.DigestTurnFrame := by
  intro s rest
  refine ⟨_, step_deTurn s rest, ?_⟩
  obtain hf | ⟨hbusy, hphase, bus, h⟩ := digestTurn_cases { s with inputs := rest }
  · exact ⟨hf.cu, hf.params, hf.devices, hf.inputs, hf.rdata, hf.hostDraws, hf.regs, hf.pace, hf.ovr, hf.src, hf.len,
      hf.dst, hf.v, hf.hex, hf.mem, fun _ hx a => by rw [hf.noHex hx]⟩
  · rw [h]
    refine ⟨rfl, rfl, rfl, rfl, rfl, rfl, rfl, rfl, rfl, rfl, rfl, rfl, rfl, rfl, hexString_outside _ _ _, ?_⟩
    exact fun hp hx => absurd ((hp hbusy hphase).symm.trans hx) (by decide)

/-- Settles O58: CU's frame at the state without the input. -/
theorem cipherTurnFrame : Obligations.CipherTurnFrame := by
  intro s rest
  have hf := cipherTurn_frame { s with inputs := rest }
  exact ⟨_, step_cuTurn s rest, hf.de, hf.params, hf.devices, hf.inputs, hf.rdata, hf.hostDraws, hf.regs, hf.pace,
    hf.ovr, hf.ctx, hf.op, hf.src, hf.len, hf.dst, hf.others, fun hx a => by rw [hf.noXform hx], fun _ => hf.mem⟩

/-! ### HOST accesses to host memory -/

/-- The model's test of an address against ranges is the statements' `covered`. -/
theorem rangesHold_iff (rs : List Range) (a : Nat) : rangesHold rs a = true ↔ covered rs a := by
  simp [rangesHold, Range.holds, covered]

/-- A HOST write outside every device and every buffer in progress is done. -/
theorem hostMemWrite_free {s : State} {a : Addr} (b : Byte) (hdev : ¬ covered s.devices a.toNat)
    (hbuf : ¬ covered (s.de.reads ++ s.de.writes ++ s.cu.reads ++ s.cu.writes) a.toNat) :
    hostMemWrite s a b = .next { s with mem := s.mem.write a.toNat b } := by
  rw [← rangesHold_iff] at hdev hbuf
  rw [hostMemWrite, if_neg hdev, if_neg hbuf]

/-- A HOST read outside every device and every output in progress is done. -/
theorem hostMemRead_free {s : State} {a : Addr} (hdev : ¬ covered s.devices a.toNat)
    (hbuf : ¬ covered (s.de.writes ++ s.cu.writes) a.toNat) :
    hostMemRead s a = .next { s with rdata := (s.mem.read a.toNat).setWidth 32 } := by
  rw [← rangesHold_iff] at hdev hbuf
  rw [hostMemRead, if_neg hdev, if_neg hbuf]

/-- Settles O38: a write reads back (R60), and zeros above a byte keep its value. -/
theorem hostMemoryAccessesReachMemory : Obligations.HostMemoryAccessesReachMemory := by
  refine ⟨fun s a b rest hdev hbuf => ?_, fun s a rest hdev hbuf => ?_⟩
  · exact ⟨_, hostMemWrite_free (s := { s with inputs := rest }) b hdev hbuf, read_write_same s.mem a.toNat b,
      fun _ h => read_write_other s.mem b h, rfl, rfl, rfl⟩
  · exact ⟨_, hostMemRead_free (s := { s with inputs := rest }) hdev hbuf,
      BitVec.toNat_setWidth_of_le (by decide), rfl, rfl, rfl, rfl⟩

/-! ### A digest command reads no state of CU -/

/-- Every digest command is `digestCommand` with its variant and its HEX bit (R75). -/
theorem exec_digestForms {f : Instr × Bool × Bool} (hf : f ∈ digestForms) (s : State) :
    exec f.1 s = digestCommand f.2.1 f.2.2 s := by
  simp only [digestForms, List.mem_cons, List.not_mem_nil, or_false] at hf
  obtain rfl | rfl | rfl | rfl := hf <;> rfl

section
variable (s : State) (u : CipherUnit)

theorem digestLoad_withCu : digestLoad { s with cu := u } = { digestLoad s with cu := u } := by
  unfold digestLoad
  dsimp only
  rcases fetchBlock s.mem s.de.bus s.de.src s.de.len.toNat s.de.p 64 with ⟨_ | b, bus⟩ <;> rfl

theorem digestFold_withCu : digestFold { s with cu := u } = { digestFold s with cu := u } := by
  unfold digestFold
  dsimp only
  split
  · rfl
  · split <;> rfl

theorem digestHex_withCu : digestHex { s with cu := u } = { digestHex s with cu := u } := by
  unfold digestHex
  dsimp only
  rcases memStore s.mem s.de.bus s.de.dst 0 (hexString s.de.h) with ⟨_ | m, bus⟩ <;> rfl

theorem digestBlocks_withCu (n : Nat) : digestBlocks n { s with cu := u } = { digestBlocks n s with cu := u } := by
  induction n generalizing s with
  | zero => rfl
  | succ n ih =>
    have hblock : digestFold (digestRounds { digestLoad s with cu := u }) =
        { digestFold (digestRounds (digestLoad s)) with cu := u } :=
      digestFold_withCu (digestRounds (digestLoad s)) u
    simp only [digestBlocks, digestLoad_withCu, hblock, ih]
    split <;> rfl

theorem digestRun_withCu : digestRun { s with cu := u } = { digestRun s with cu := u } := by
  simp only [digestRun, digestBlocks_withCu, digestHex_withCu]
  split <;> rfl

end

/-- The next state of a digest command that answers one: `digestCommand` without the two stops, which alone look
at CU (R68). -/
def digestNext (v hex : Bool) (s : State) : State :=
  if s.de.status.busy then { s with de := { s.de with status := s.de.status.drop } }
  else match digestCheck hex s.de.regs with
    | some e => { s with de := { s.de with status := s.de.status.accept.raise e } }
    | none =>
      match s.de.pace with
      | .whole => digestRun { s with de := digestStart v hex s.de }
      | .stepped => { s with de := digestStart v hex s.de }

theorem digestCommand_next {v hex : Bool} {s t : State} (h : digestCommand v hex s = .next t) :
    t = digestNext v hex s := by
  obtain ⟨hb, h'⟩ | ⟨hb, e, hc, h'⟩ | ⟨hb, hc, h' | h' | ⟨hp, h'⟩ | ⟨hp, h'⟩⟩ := digestCommand_cases v hex s <;>
    cases h'.symm.trans h
  · simp [digestNext, hb]
  · simp [digestNext, hb, hc]
  · simp [digestNext, hb, hc, hp]
  · simp [digestNext, hb, hc, hp]

theorem digestNext_withCu (v hex : Bool) (s : State) (u : CipherUnit) :
    digestNext v hex { s with cu := u } = { digestNext v hex s with cu := u } := by
  unfold digestNext
  dsimp only
  split
  · rfl
  · split
    · rfl
    · split
      · exact digestRun_withCu { s with de := digestStart v hex s.de } u
      · rfl

/-- Settles O15: the next state, where there is one, does not depend on CU but for CU itself. -/
theorem digestIgnoresTheCipherUnit : Obligations.DigestIgnoresTheCipherUnit := by
  intro s u f hf t t' ht ht'
  rw [exec_digestForms hf] at ht ht'
  rw [digestCommand_next ht, digestCommand_next ht', digestNext_withCu]
  exact ⟨rfl, rfl⟩

/-! ### A cipher command reads no state of DE -/

/-- Every cipher command is `cipherCommand` with its operation code (R76). -/
theorem exec_cipherForms {c : Nat} {f : Instr × CipherOp} (hf : f ∈ cipherForms c) (s : State) :
    exec f.1 s = cipherCommand f.2 c s := by
  simp only [cipherForms, List.mem_cons, List.not_mem_nil, or_false] at hf
  obtain rfl | rfl | rfl := hf <;> rfl

section
variable (s : State) (d : DigestEngine)

theorem cipherBusError_withDe : cipherBusError { s with de := d } = { cipherBusError s with de := d } := by
  unfold cipherBusError
  dsimp only
  split <;> rfl

theorem newReadKey_withDe : newReadKey { s with de := d } = { newReadKey s with de := d } := by
  unfold newReadKey
  dsimp only
  rcases memFetch s.mem s.cu.bus s.cu.src 0 (keyUsed s.cu.len) with ⟨_ | kb, bus⟩
  · exact cipherBusError_withDe (setCuBus s bus) d
  · rfl

theorem newRun_withDe : newRun { s with de := d } = { newRun s with de := d } := by
  simp only [newRun, newReadKey_withDe]
  split <;> rfl

theorem xformByte_withDe : xformByte { s with de := d } = { xformByte s with de := d } := by
  unfold xformByte
  dsimp only
  split
  · exact cipherBusError_withDe (setCuBus s _) d
  · split
    · exact cipherBusError_withDe (setCuBus s _) d
    · rfl

theorem xformBytes_withDe (n : Nat) : xformBytes n { s with de := d } = { xformBytes n s with de := d } := by
  induction n generalizing s with
  | zero => rfl
  | succ n ih =>
    simp only [xformBytes, xformByte_withDe, ih]
    split <;> rfl

theorem xformRun_withDe : xformRun { s with de := d } = { xformRun s with de := d } := by
  simp only [xformRun, xformBytes_withDe]
  split <;> rfl

theorem cipherRun_withDe : cipherRun { s with de := d } = { cipherRun s with de := d } := by
  unfold cipherRun
  dsimp only
  split
  · exact newRun_withDe s d
  · exact xformRun_withDe s d
  · rfl

end

/-- The next state of a cipher command that answers one: `cipherCommand` without the two stops, which alone look
at DE (R68). -/
def cipherNext (op : CipherOp) (c : Nat) (s : State) : State :=
  if s.cu.status.busy then { s with cu := { s.cu with status := s.cu.status.drop } }
  else match cipherCheck op c (nCtx s.params) s.cu with
    | some e => { s with cu := { s.cu with status := s.cu.status.accept.raise e } }
    | none =>
      if emptyXform op s.cu.regs then { s with cu := cipherAtOnce op c s.cu }
      else match s.cu.pace with
        | .whole => cipherRun { s with cu := cipherStart op c s.cu }
        | .stepped => { s with cu := cipherStart op c s.cu }

/-- An RC4.XFORM of 0 bytes that passes every check completes at acceptance (R112). -/
theorem cipherCommand_empty {op : CipherOp} {c : Nat} {s : State} (hb : s.cu.status.busy = false)
    (hc : cipherCheck op c (nCtx s.params) s.cu = none) (he : emptyXform op s.cu.regs = true) :
    cipherCommand op c s = .next { s with cu := cipherAtOnce op c s.cu } := by
  simp [cipherCommand, hb, hc, he]

theorem cipherCommand_next {op : CipherOp} {c : Nat} {s t : State} (h : cipherCommand op c s = .next t) :
    t = cipherNext op c s := by
  obtain ⟨hb, h'⟩ | ⟨hb, e, hc, h'⟩ | ⟨hb, hc, hrest⟩ := cipherCommand_cases op c s
  · cases h'.symm.trans h
    simp [cipherNext, hb]
  · cases h'.symm.trans h
    simp [cipherNext, hb, hc]
  · by_cases he : emptyXform op s.cu.regs = true
    · cases (cipherCommand_empty hb hc he).symm.trans h
      simp [cipherNext, hb, hc, he]
    · obtain ⟨he', -⟩ | h' | h' | ⟨hp, h'⟩ | ⟨hp, h'⟩ := hrest
      · exact absurd he' he
      all_goals cases h'.symm.trans h
      · simp [cipherNext, hb, hc, he, hp]
      · simp [cipherNext, hb, hc, he, hp]

theorem cipherNext_withDe (op : CipherOp) (c : Nat) (s : State) (d : DigestEngine) :
    cipherNext op c { s with de := d } = { cipherNext op c s with de := d } := by
  unfold cipherNext
  dsimp only
  split
  · rfl
  · split
    · rfl
    · split
      · rfl
      · split
        · exact cipherRun_withDe { s with cu := cipherStart op c s.cu } d
        · rfl

/-- Settles O26: the next state, where there is one, does not depend on DE but for DE itself. -/
theorem cipherIgnoresTheDigestEngine : Obligations.CipherIgnoresTheDigestEngine := by
  intro s d c f hf t t' ht ht'
  rw [exec_cipherForms hf] at ht ht'
  rw [cipherCommand_next ht, cipherCommand_next ht', cipherNext_withDe]
  exact ⟨rfl, rfl⟩

end Sys2Proof.Machine
end

section
/-! What one step can do, said once, for the invariants of this and of other families: every step that answers a next
state makes one `Change` on the state without the input it took. -/

namespace Sys2Proof.Machine

/-! ### The command words -/

/-- A word decodes to a command of the unit whose CMD register it was written to (R71). -/
theorem decode_engine {u : Engine} {v : Word} {i : Instr} (h : decode u v = .ok i) : i.engine = u := by
  cases u with
  | de =>
    simp only [decode, decodeDigest] at h
    split_ifs at h
    split at h <;> cases h <;> rfl
  | cu =>
    simp only [decode, decodeCipher] at h
    split_ifs at h <;> cases h <;> rfl

/-- Every command of DE is `digestCommand` with some variant and HEX bit (R75). -/
theorem exec_de {i : Instr} (h : i.engine = .de) : ∃ v hex, ∀ s, exec i s = digestCommand v hex s := by
  cases i with
  | sha0Digest => exact ⟨false, false, fun _ => rfl⟩
  | sha1Digest => exact ⟨true, false, fun _ => rfl⟩
  | sha0Hex => exact ⟨false, true, fun _ => rfl⟩
  | sha1Hex => exact ⟨true, true, fun _ => rfl⟩
  | rc4New _ | rc4Xform _ | rc4Free _ => cases h

/-- Every command of CU is `cipherCommand` with some operation code and context (R76). -/
theorem exec_cu {i : Instr} (h : i.engine = .cu) : ∃ op c, ∀ s, exec i s = cipherCommand op c s := by
  cases i with
  | rc4New c => exact ⟨.new, c, fun _ => rfl⟩
  | rc4Xform c => exact ⟨.xform, c, fun _ => rfl⟩
  | rc4Free c => exact ⟨.free, c, fun _ => rfl⟩
  | sha0Digest | sha1Digest | sha0Hex | sha1Hex => cases h

/-- A word written to DE_CMD is a digest command or illegal (R72, R77). -/
theorem writeCmd_de (v : Word) :
    (∃ w hex, ∀ s, writeCmd .de v s = digestCommand w hex s) ∨ ∀ s, writeCmd .de v s = .next (illegalDigest s) := by
  unfold writeCmd
  cases h : decode .de v with
  | ok i => exact .inl (exec_de (decode_engine h))
  | error e => exact .inr fun _ => rfl

/-- A word written to CU_CMD is a cipher command or illegal (R73, R77). -/
theorem writeCmd_cu (v : Word) :
    (∃ op c, ∀ s, writeCmd .cu v s = cipherCommand op c s) ∨ ∀ s, writeCmd .cu v s = .next (illegalCipher s) := by
  unfold writeCmd
  cases h : decode .cu v with
  | ok i => exact .inl (exec_cu (decode_engine h))
  | error e => exact .inr fun _ => rfl

/-! ### Writes on the register port -/

/-- An aligned 32-bit write to a mapped offset is the write to its register (R31, R56). -/
theorem step_regWrite {o : BitVec 9} {r : Reg} (hal : aligned o) (hr : regAt o = some r) (s : State) (v : Word)
    (rest : List Event) :
    step { s with inputs := .regWrite o 32 v :: rest } = writeReg { s with inputs := rest } v r := by
  simp [step, perform, goodAccess, hal, writeOffset, hr]

/-- An aligned 32-bit write to an offset with no register is ignored (R32). -/
theorem step_regWrite_unmapped {o : BitVec 9} (hal : aligned o) (hr : regAt o = none) (s : State) (v : Word)
    (rest : List Event) :
    step { s with inputs := .regWrite o 32 v :: rest } = .next { s with inputs := rest } := by
  simp [step, perform, goodAccess, hal, writeOffset, hr]

theorem step_cmdWrite_de (s : State) (v : Word) (rest : List Event) :
    step { s with inputs := cmdWrite .de v :: rest } = writeCmd .de v { s with inputs := rest } :=
  step_regWrite (by decide) (r := .deCmd) rfl s v rest

theorem step_cmdWrite_cu (s : State) (v : Word) (rest : List Event) :
    step { s with inputs := cmdWrite .cu v :: rest } = writeCmd .cu v { s with inputs := rest } :=
  step_regWrite (by decide) (r := .cuCmd) rfl s v rest

/-! ### The changes a step can make -/

/-- What one event that answers a next state can do to the state without that event. -/
inductive Change (s : State) : State → Prop where
  /-- The HOST is answered, or its access ignored. -/
  | answered (w : Word) (n : Nat) : Change s { s with rdata := w, hostDraws := n }
  /-- The HOST writes a byte of memory. -/
  | memWrite (a : Addr) (b : Byte) : Change s { s with mem := s.mem.write a.toNat b }
  /-- The HOST writes a parameter register of DE. -/
  | deRegs (r : ParamRegs) : Change s (setDeRegs s r)
  /-- The HOST writes a parameter register of CU. -/
  | cuRegs (r : ParamRegs) : Change s (setCuRegs s r)
  /-- The HOST writes DE_STATUS. -/
  | deStatus (v : Word) : Change s { s with de := { s.de with status := s.de.status.hostWrite v } }
  /-- The HOST writes CU_STATUS. -/
  | cuStatus (v : Word) : Change s { s with cu := { s.cu with status := s.cu.status.hostWrite v } }
  /-- An illegal word reaches DE_CMD. -/
  | deIllegal : Change s (illegalDigest s)
  /-- An illegal word reaches CU_CMD. -/
  | cuIllegal : Change s (illegalCipher s)
  /-- A digest command reaches DE_CMD and meets neither a device nor a conflict. -/
  | digest {v hex : Bool} {t : State} (h : digestCommand v hex s = .next t) : Change s t
  /-- A cipher command reaches CU_CMD and meets neither a device nor a conflict. -/
  | cipher {op : CipherOp} {c : Nat} {t : State} (h : cipherCommand op c s = .next t) : Change s t
  /-- DE takes a turn. -/
  | deTurn : Change s (digestTurn s)
  /-- CU takes a turn. -/
  | cuTurn : Change s (cipherTurn s)
  /-- Reset is asserted. -/
  | reset : Change s (resetBlock s)

theorem writeCmd_change {u : Engine} {v : Word} {s t : State} (h : writeCmd u v s = .next t) : Change s t := by
  cases u with
  | de =>
    obtain ⟨w, hex, hcmd⟩ | hill := writeCmd_de v
    · exact .digest ((hcmd s).symm.trans h)
    · cases (hill s).symm.trans h
      exact .deIllegal
  | cu =>
    obtain ⟨op, c, hcmd⟩ | hill := writeCmd_cu v
    · exact .cipher ((hcmd s).symm.trans h)
    · cases (hill s).symm.trans h
      exact .cuIllegal

theorem writeReg_change {v : Word} {r : Reg} {s t : State} (h : writeReg s v r = .next t) : Change s t := by
  cases r with
  | deCmd | cuCmd => exact writeCmd_change h
  | deStatus => cases h; exact .deStatus v
  | cuStatus => cases h; exact .cuStatus v
  | deSrcLo | deSrcHi | deLenLo | deLenHi | deDstLo | deDstHi => cases h; exact .deRegs _
  | cuSrcLo | cuSrcHi | cuLenLo | cuLenHi | cuDstLo | cuDstHi => cases h; exact .cuRegs _
  | deH _ | cuValid | engId | engParam => cases h; exact .answered _ _

theorem writeOffset_change {v : Word} {o : BitVec 9} {s t : State} (h : writeOffset s o v = .next t) : Change s t := by
  unfold writeOffset at h
  split at h
  · exact writeReg_change h
  · cases h
    exact .answered _ _

theorem hostMemRead_change {a : Addr} {s t : State} (h : hostMemRead s a = .next t) : Change s t := by
  unfold hostMemRead at h
  split_ifs at h
  cases h
  exact .answered _ _

theorem hostMemWrite_change {a : Addr} {b : Byte} {s t : State} (h : hostMemWrite s a b = .next t) : Change s t := by
  unfold hostMemWrite at h
  split_ifs at h
  cases h
  exact .memWrite a b

theorem perform_change {e : Event} {s t : State} (h : perform e s = .next t) : Change s t := by
  cases e with
  | regRead off bits =>
    simp only [perform] at h
    split_ifs at h
    cases h
    exact .answered _ _
  | regWrite off bits v =>
    simp only [perform] at h
    split_ifs at h
    exact writeOffset_change h
  | memRead a => exact hostMemRead_change h
  | memWrite a b => exact hostMemWrite_change h
  | deTurn => cases h; exact .deTurn
  | cuTurn => cases h; exact .cuTurn
  | reset => cases h; exact .reset

theorem idleTurn_change (s : State) : Change s (idleTurn s) := by
  cases h : s.de.status.busy
  · rw [idleTurn_deIdle h]
    exact .cuTurn
  · rw [idleTurn_deBusy h]
    exact .deTurn

/-- Every step is one change of the state with what waits outside once the step's input is taken. -/
theorem step_change {s t : State} (h : step s = .next t) : ∃ l, Change { s with inputs := l } t := by
  unfold step at h
  split at h
  · cases h
    exact ⟨s.inputs, idleTurn_change s⟩
  · exact ⟨_, perform_change h⟩

/-- A digest command leaves CU and the parameters alone on every path to a next state (R2, R8). -/
theorem digestCommand_leaves {v hex : Bool} {s t : State} (h : digestCommand v hex s = .next t) :
    t.cu = s.cu ∧ t.params = s.params := by
  obtain ⟨-, h'⟩ | ⟨-, e, -, h'⟩ | ⟨-, -, h' | h' | ⟨-, h'⟩ | ⟨-, h'⟩⟩ := digestCommand_cases v hex s <;>
    cases h'.symm.trans h
  · exact ⟨rfl, rfl⟩
  · exact ⟨rfl, rfl⟩
  · have hf := digestRun_frame { s with de := digestStart v hex s.de } rfl
    exact ⟨hf.cu, hf.params⟩
  · exact ⟨rfl, rfl⟩

/-- A cipher command leaves DE alone on every path to a next state (R2). -/
theorem cipherCommand_de {op : CipherOp} {c : Nat} {s t : State} (h : cipherCommand op c s = .next t) :
    t.de = s.de := by
  obtain ⟨-, h'⟩ | ⟨-, e, -, h'⟩ | ⟨-, -, ⟨-, h'⟩ | h' | h' | ⟨-, h'⟩ | ⟨-, h'⟩⟩ := cipherCommand_cases op c s <;>
    cases h'.symm.trans h
  · rfl
  · rfl
  · rfl
  · exact (cipherRun_frame { s with cu := cipherStart op c s.cu } rfl).de
  · rfl

/-- A turn of DE leaves CU, the parameters and what waits outside alone, in every state (R2, R8). -/
theorem digestTurn_leaves (s : State) :
    (digestTurn s).cu = s.cu ∧ (digestTurn s).params = s.params ∧ (digestTurn s).inputs = s.inputs := by
  obtain hf | ⟨-, -, bus, h⟩ := digestTurn_cases s
  · exact ⟨hf.cu, hf.params, hf.inputs⟩
  · rw [h]
    exact ⟨rfl, rfl, rfl⟩

/-! ### A command to a busy unit -/

theorem digestCommand_busy (v hex : Bool) {s : State} (h : s.de.status.busy = true) :
    digestCommand v hex s = .next { s with de := { s.de with status := s.de.status.drop } } := by
  simp [digestCommand, h]

theorem cipherCommand_busy (op : CipherOp) (c : Nat) {s : State} (h : s.cu.status.busy = true) :
    cipherCommand op c s = .next { s with cu := { s.cu with status := s.cu.status.drop } } := by
  simp [cipherCommand, h]

/-- Settles O6: a word is a command of its unit or illegal, and a busy unit drops both. -/
theorem busyUnitDropsTheWrite : Obligations.BusyUnitDropsTheWrite := by
  refine ⟨fun s v rest hb => ?_, fun s v rest hb => ?_⟩
  · rw [step_cmdWrite_de]
    obtain ⟨w, hex, h⟩ | h := writeCmd_de v <;> rw [h]
    · exact digestCommand_busy w hex hb
    · simp [illegalDigest, hb, Status.drop]
  · rw [step_cmdWrite_cu]
    obtain ⟨op, c, h⟩ | h := writeCmd_cu v <;> rw [h]
    · exact cipherCommand_busy op c hb
    · simp [illegalCipher, hb, Status.drop]

end Sys2Proof.Machine
end

section
/-! The invariant of both STATUS registers (R34, R47 to R50, R124). -/

namespace Sys2Proof.Machine

/-! ### The operations on STATUS keep it consistent -/

theorem Status.reset_ok : Status.reset.Ok where
  running := by decide
  exclusive := by decide
  noError := by decide
  someError := fun h => absurd h (by decide)

theorem Status.Ok.drop {st : Status} (h : st.Ok) : st.drop.Ok where
  running := h.running
  exclusive := h.exclusive
  noError := h.noError
  someError := h.someError

/-- The STATUS of a command just accepted is consistent whatever it was before (R48). -/
theorem Status.accept_start_ok (st : Status) : st.accept.start.Ok where
  running _ := ⟨rfl, rfl⟩
  exclusive := by simp
  noError _ := rfl
  someError h := by simp at h

/-- A command that completes at acceptance leaves STATUS consistent (R48, R50). -/
theorem Status.accept_complete_ok (st : Status) : st.accept.complete.Ok where
  running h := by simp at h
  exclusive := by simp
  noError _ := rfl
  someError h := by simp at h

/-- An error is raised consistently where DONE = 0 (R50, R124). -/
theorem Status.raise_ok {st : Status} (e : ErrCode) (hdone : st.done = false) : (st.raise e).Ok where
  running h := by simp at h
  exclusive := by simp [hdone]
  noError h := by simp at h
  someError _ := ⟨e, rfl⟩

/-- A command in progress completes consistently, since ERR = 0 while BUSY (R50). -/
theorem Status.Ok.complete {st : Status} (h : st.Ok) (hbusy : st.busy = true) : st.complete.Ok where
  running h := by simp at h
  exclusive := by simp [(h.running hbusy).2]
  noError := h.noError
  someError := h.someError

/-- A HOST write to STATUS, field by field (R47). -/
theorem Status.hostWrite_eq (st : Status) (v : Word) : st.hostWrite v =
    { busy := st.busy, done := st.done && !v.getLsbD 1, err := st.err && !v.getLsbD 2, ovr := st.ovr && !v.getLsbD 3,
      errCode := if v.getLsbD 2 then 0 else st.errCode } := by
  unfold Status.hostWrite
  cases v.getLsbD 1 <;> cases v.getLsbD 2 <;> cases v.getLsbD 3 <;> simp [Status.clearErr]

/-- Clearing flags keeps STATUS consistent: ERR and ERRCODE go together (R47). -/
theorem Status.Ok.hostWrite {st : Status} (h : st.Ok) (v : Word) : (st.hostWrite v).Ok := by
  rw [Status.hostWrite_eq]
  constructor
  · intro hbusy
    simp [h.running hbusy]
  · rintro ⟨hdone, herr⟩
    simp only [Bool.and_eq_true] at hdone herr
    exact h.exclusive ⟨hdone.1, herr.1⟩
  · intro herr
    split
    · rfl
    · exact h.noError (by simp_all)
  · intro herr
    simp only [Bool.and_eq_true, Bool.not_eq_true'] at herr
    rw [if_neg (ne_true_of_eq_false herr.2)]
    exact h.someError herr.1

/-- Settles O27: the two registers go through the one STATUS write. -/
theorem statusWriteClearsTheWrittenFlags : Obligations.StatusWriteClearsTheWrittenFlags := by
  refine ⟨fun s v rest => ?_, fun s v rest => ?_⟩
  · rw [step_regWrite (by decide) (r := .deStatus) rfl, ← Status.hostWrite_eq]
    rfl
  · rw [step_regWrite (by decide) (r := .cuStatus) rfl, ← Status.hostWrite_eq]
    rfl

/-! ### What the units' own steps do to STATUS -/

/-- What any number of a unit's own steps do to its STATUS: nothing, or they end its command in progress, completed or
with a bus error. -/
def Status.Progress (st st' : Status) : Prop :=
  st' = st ∨ (st.busy = true ∧ (st' = st.complete ∨ st' = st.raise .bus))

theorem Status.Progress.trans {st st' st'' : Status} (h : st.Progress st') (k : st'.Progress st'') :
    st.Progress st'' := by
  obtain rfl | ⟨hbusy, rfl | rfl⟩ := h
  · exact k
  · obtain rfl | ⟨hb, -⟩ := k
    · exact .inr ⟨hbusy, .inl rfl⟩
    · exact absurd hb (by simp)
  · obtain rfl | ⟨hb, -⟩ := k
    · exact .inr ⟨hbusy, .inr rfl⟩
    · exact absurd hb (by simp)

theorem Status.Ok.progress {st st' : Status} (h : st.Ok) (k : st.Progress st') : st'.Ok := by
  obtain rfl | ⟨hbusy, rfl | rfl⟩ := k
  · exact h
  · exact h.complete hbusy
  · exact Status.raise_ok _ (h.running hbusy).1

section
variable {s : State} (hbusy : s.de.status.busy = true)
include hbusy

theorem digestLoad_progress : s.de.status.Progress (digestLoad s).de.status := by
  obtain ⟨b, bus, -, h⟩ | ⟨bus, -, h⟩ := digestLoad_cases s <;> rw [h]
  · exact .inl rfl
  · exact .inr ⟨hbusy, .inr rfl⟩

theorem digestFold_progress : s.de.status.Progress (digestFold s).de.status := by
  unfold digestFold
  split
  · exact .inl rfl
  · split
    · exact .inl rfl
    · exact .inr ⟨hbusy, .inl rfl⟩

theorem digestHex_progress : s.de.status.Progress (digestHex s).de.status := by
  obtain ⟨bus, h⟩ | ⟨bus, h⟩ := digestHex_cases s <;> rw [h]
  · exact .inr ⟨hbusy, .inl rfl⟩
  · exact .inr ⟨hbusy, .inr rfl⟩

end

theorem digestTurn_progress (s : State) : s.de.status.Progress (digestTurn s).de.status := by
  unfold digestTurn
  split
  case isFalse => exact .inl rfl
  case isTrue hbusy =>
    split
    · exact digestLoad_progress hbusy
    · split
      · exact .inl rfl
      · exact digestFold_progress hbusy
    · exact digestHex_progress hbusy

/-- A load stays on its block. -/
theorem digestLoad_blk (s : State) : (digestLoad s).de.blk = s.de.blk := by
  obtain ⟨b, bus, -, h⟩ | ⟨bus, -, h⟩ := digestLoad_cases s <;> rw [h] <;> rfl

/-- The block loop ends the command at most once: the completion comes with the last block. -/
theorem digestBlocks_progress (n : Nat) {s : State} (hbusy : s.de.status.busy = true)
    (hn : s.de.blk + n ≤ blockCount s.de.len.toNat) : s.de.status.Progress (digestBlocks n s).de.status := by
  induction n generalizing s with
  | zero => exact .inl rfl
  | succ n ih =>
    have hload := digestLoad_progress hbusy
    have hlen := (digestLoad_frame s).len
    unfold digestBlocks
    dsimp only
    split
    case isFalse => exact hload
    case isTrue hloaded =>
      refine hload.trans ?_
      cases n with
      | zero => exact digestFold_progress (s := digestRounds (digestLoad s)) hloaded
      | succ n =>
        have hnext : digestFold (digestRounds (digestLoad s)) = digestFolded (digestRounds (digestLoad s)) :=
          if_pos (by simp only [digestRounds_blk, digestRounds_len, digestLoad_blk, hlen]; omega)
        rw [hnext]
        refine ih (s := digestFolded (digestRounds (digestLoad s))) hloaded ?_
        simp only [digestFolded_blk, digestFolded_len, digestRounds_blk, digestRounds_len, digestLoad_blk, hlen]
        omega

theorem digestRun_progress {s : State} (hbusy : s.de.status.busy = true) (hblk : s.de.blk = 0) :
    s.de.status.Progress (digestRun s).de.status := by
  have hblocks := digestBlocks_progress (blockCount s.de.len.toNat) hbusy (by omega)
  unfold digestRun
  dsimp only
  split
  · exact hblocks.trans (digestHex_progress ‹_›)
  · exact hblocks

section
variable {s : State} (hbusy : s.cu.status.busy = true)
include hbusy

theorem cipherComplete_progress : s.cu.status.Progress (cipherComplete s).cu.status := .inr ⟨hbusy, .inl rfl⟩

theorem newReadKey_progress : s.cu.status.Progress (newReadKey s).cu.status := by
  obtain ⟨kb, bus, -, h⟩ | ⟨bus, h⟩ := newReadKey_cases s <;> rw [h]
  · exact .inl rfl
  · exact .inr ⟨hbusy, .inr (cipherBusError_status _)⟩

theorem xformByte_progress : s.cu.status.Progress (xformByte s).cu.status := by
  obtain ⟨-, -, h⟩ | ⟨bus, h⟩ := xformByte_cases s <;> rw [h]
  · exact .inl rfl
  · exact .inr ⟨hbusy, .inr (cipherBusError_status _)⟩

theorem newRun_progress : s.cu.status.Progress (newRun s).cu.status := by
  have hread := newReadKey_progress hbusy
  unfold newRun
  dsimp only
  split
  · exact hread.trans (.inr ⟨‹_›, .inl rfl⟩)
  · exact hread

theorem xformBytes_progress (n : Nat) : s.cu.status.Progress (xformBytes n s).cu.status := by
  induction n generalizing s with
  | zero => exact .inl rfl
  | succ n ih =>
    have hbyte := xformByte_progress hbusy
    unfold xformBytes
    dsimp only
    split
    · exact hbyte.trans (ih ‹_›)
    · exact hbyte

theorem xformRun_progress : s.cu.status.Progress (xformRun s).cu.status := by
  have hbytes := xformBytes_progress hbusy s.cu.len.toNat
  unfold xformRun
  dsimp only
  split
  · exact hbytes.trans (cipherComplete_progress ‹_›)
  · exact hbytes

theorem cipherRun_progress : s.cu.status.Progress (cipherRun s).cu.status := by
  unfold cipherRun
  split
  · exact newRun_progress hbusy
  · exact xformRun_progress hbusy
  · exact .inr ⟨hbusy, .inl rfl⟩

end

theorem cipherTurn_progress (s : State) : s.cu.status.Progress (cipherTurn s).cu.status := by
  unfold cipherTurn
  split
  case isFalse => exact .inl rfl
  case isTrue hbusy =>
    split
    · split
      · exact newReadKey_progress hbusy
      · split
        · exact .inl rfl
        · exact .inr ⟨hbusy, .inl rfl⟩
    · split
      · exact xformByte_progress hbusy
      · exact cipherComplete_progress hbusy
    · exact .inr ⟨hbusy, .inl rfl⟩

/-! ### The invariant -/

theorem illegal_status_ok {st : Status} (h : st.Ok) :
    (if st.busy then st.drop else st.accept.raise .illegalCmd).Ok := by
  split
  · exact h.drop
  · exact Status.raise_ok _ rfl

theorem digestCommand_status_ok {v hex : Bool} {s t : State} (hok : s.de.status.Ok)
    (h : digestCommand v hex s = .next t) : t.de.status.Ok := by
  obtain ⟨-, h'⟩ | ⟨-, e, -, h'⟩ | ⟨-, -, h' | h' | ⟨-, h'⟩ | ⟨-, h'⟩⟩ := digestCommand_cases v hex s <;>
    cases h'.symm.trans h
  · exact hok.drop
  · exact Status.raise_ok e rfl
  · exact (Status.accept_start_ok _).progress
      (digestRun_progress (s := { s with de := digestStart v hex s.de }) rfl rfl)
  · exact Status.accept_start_ok _

theorem cipherCommand_status_ok {op : CipherOp} {c : Nat} {s t : State} (hok : s.cu.status.Ok)
    (h : cipherCommand op c s = .next t) : t.cu.status.Ok := by
  obtain ⟨-, h'⟩ | ⟨-, e, -, h'⟩ | ⟨-, -, ⟨-, h'⟩ | h' | h' | ⟨-, h'⟩ | ⟨-, h'⟩⟩ := cipherCommand_cases op c s <;>
    cases h'.symm.trans h
  · exact hok.drop
  · exact Status.raise_ok e rfl
  · exact Status.accept_complete_ok _
  · exact (Status.accept_start_ok _).progress
      (cipherRun_progress (s := { s with cu := cipherStart op c s.cu }) rfl)
  · exact Status.accept_start_ok _

theorem Change.status_ok {s t : State} (h : Change s t) (hde : s.de.status.Ok) (hcu : s.cu.status.Ok) :
    t.de.status.Ok ∧ t.cu.status.Ok := by
  cases h with
  | answered | memWrite | deRegs | cuRegs => exact ⟨hde, hcu⟩
  | deStatus v => exact ⟨hde.hostWrite v, hcu⟩
  | cuStatus v => exact ⟨hde, hcu.hostWrite v⟩
  | deIllegal => exact ⟨illegal_status_ok hde, hcu⟩
  | cuIllegal => exact ⟨hde, illegal_status_ok hcu⟩
  | digest h => exact ⟨digestCommand_status_ok hde h, (digestCommand_leaves h).1 ▸ hcu⟩
  | cipher h => exact ⟨cipherCommand_de h ▸ hde, cipherCommand_status_ok hcu h⟩
  | deTurn => exact ⟨hde.progress (digestTurn_progress s), (digestTurn_leaves s).1 ▸ hcu⟩
  | cuTurn => exact ⟨(cipherTurn_frame s).de ▸ hde, hcu.progress (cipherTurn_progress s)⟩
  | reset => exact ⟨Status.reset_ok, Status.reset_ok⟩

/-- Settles O41: every change a step can make keeps both STATUS registers consistent. -/
theorem stepKeepsStatusConsistent : Obligations.StepKeepsStatusConsistent := by
  intro s t hde hcu h
  obtain ⟨l, hchange⟩ := step_change h
  exact hchange.status_ok hde hcu

end Sys2Proof.Machine
end

section
/-! The invariant of the contexts (R26, R28): each S-box in use is a permutation, since RC4 only ever swaps entries. -/

namespace Sys2Proof.Machine

/-! ### Swaps keep a permutation -/

/-- An S-box is a permutation exactly when its lookup is bijective (R28). -/
theorem permutation_iff (b : Sbox) : Permutation b ↔ Function.Bijective (sboxAt b) :=
  (Function.bijective_iff_existsUnique _).symm

theorem sboxAt_sboxPut (b : Sbox) (i v k : Byte) : sboxAt (sboxPut b i v) k = if i = k then v else sboxAt b k := by
  simp only [sboxAt, sboxPut, Vector.getElem_set, BitVec.toNat_inj]

/-- Swapping two entries reorders the lookup by the transposition of the two indices. -/
theorem sboxAt_sboxSwap (b : Sbox) (i j : Byte) : sboxAt (sboxSwap b i j) = sboxAt b ∘ Equiv.swap i j := by
  funext k
  simp only [sboxSwap, sboxAt_sboxPut, Function.comp_apply, Equiv.swap_apply_def]
  grind

theorem Permutation.swap {b : Sbox} (h : Permutation b) (i j : Byte) : Permutation (sboxSwap b i j) := by
  rw [permutation_iff] at h ⊢
  rw [sboxAt_sboxSwap]
  exact h.comp (Equiv.swap i j).bijective

theorem identityBox_permutation : Permutation identityBox := by
  have hid : sboxAt identityBox = id := by
    funext k
    simp [sboxAt, identityBox]
  rw [permutation_iff, hid]
  exact Function.bijective_id

/-- Settles O51: the schedule starts at the identity and each of its iterations is a swap. -/
theorem keyScheduleGivesAPermutation : Obligations.KeyScheduleGivesAPermutation := by
  intro key len
  unfold ksa
  generalize List.range 256 = ks
  have hkeep : ∀ q : Sbox × Byte, Permutation q.1 → Permutation (ks.foldl (ksaStep key len) q).1 := by
    induction ks with
    | nil => exact fun _ h => h
    | cons k ks ih => exact fun q h => ih _ (h.swap _ _)
  exact hkeep (identityBox, 0) identityBox_permutation

/-! ### What keeps the contexts sound -/

/-- The contexts are sound as long as what they speak of is: a command may end, but none may start. -/
theorem ContextsOk.of_same {s t : State} (h : ContextsOk s) (params : t.params = s.params)
    (ctxs : t.cu.ctxs = s.cu.ctxs) (ctx : t.cu.ctx = s.cu.ctx) (op : t.cu.op = s.cu.op)
    (phase : t.cu.phase = s.cu.phase) (busy : t.cu.status.busy = true → s.cu.status.busy = true) : ContextsOk t where
  perm c := by rw [params, context_congr ctxs c]; exact h.perm c
  running hb := by rw [params, ctx]; exact h.running (busy hb)
  keying hb := by rw [op, phase, ctx, context_congr ctxs]; exact h.keying (busy hb)

theorem ContextsOk.of_same_cu {s t : State} (h : ContextsOk s) (params : t.params = s.params) (cu : t.cu = s.cu) :
    ContextsOk t := by
  refine h.of_same params ?_ ?_ ?_ ?_ ?_ <;> rw [cu]
  exact id

/-- With CU idle only the valid contexts count. -/
theorem ContextsOk.of_idle {s t : State} (h : ContextsOk s) (params : t.params = s.params)
    (ctxs : t.cu.ctxs = s.cu.ctxs) (idle : t.cu.status.busy = false) : ContextsOk t where
  perm c := by rw [params, context_congr ctxs c]; exact h.perm c
  running hb := absurd (idle.symm.trans hb) (by decide)
  keying hb := absurd (idle.symm.trans hb) (by decide)

/-- CU with no valid context and no command in progress. -/
theorem contextsOk_reset (s : State) (hctxs : s.cu.ctxs = Vector.replicate 32 Context.reset)
    (idle : s.cu.status.busy = false) : ContextsOk s where
  perm c _ hv := by simp [CipherUnit.context, hctxs, Context.reset] at hv
  running hb := absurd (idle.symm.trans hb) (by decide)
  keying hb := absurd (idle.symm.trans hb) (by decide)

/-- Numbers that name one slot name one context. -/
theorem context_of_slot {u : CipherUnit} {c c' : Nat} (h : slot c = slot c') : u.context c = u.context c' := by
  simp only [CipherUnit.context, h]

/-- A step of the command in progress keeps the contexts sound if the context it names, the only one it can write,
stays sound. -/
theorem ContextsOk.of_frame {s t : State} (h : ContextsOk s) (hbusy : s.cu.status.busy = true) (hf : CipherFrame s t)
    (hvalid : (t.cu.context s.cu.ctx.toNat).valid = true → Permutation (t.cu.context s.cu.ctx.toNat).sbox)
    (hkeying : t.cu.status.busy = true → s.cu.op = .new → t.cu.phase = .schedule →
      Permutation (t.cu.context s.cu.ctx.toNat).sbox) : ContextsOk t where
  perm c hc hv := by
    have hctx := h.running hbusy
    rw [hf.params]
    by_cases hs : slot c = slot s.cu.ctx.toNat
    · have hnum : c = s.cu.ctx.toNat := by
        have := nCtx_le s.params
        rw [← slot_val hc, hs, slot_val (by omega)]
      subst hnum
      exact ⟨hctx, hvalid hv⟩
    · rw [hf.others c hs] at hv ⊢
      exact h.perm c hc hv
  running _ := by rw [hf.params, hf.ctx]; exact h.running hbusy
  keying hb hop hph := by rw [hf.ctx]; exact hkeying hb (hf.op ▸ hop) hph

/-- The named context is a permutation if it is valid. -/
theorem ContextsOk.named {s : State} (h : ContextsOk s) (hbusy : s.cu.status.busy = true)
    (hv : (s.cu.context s.cu.ctx.toNat).valid = true) : Permutation (s.cu.context s.cu.ctx.toNat).sbox :=
  (h.perm _ (lt_of_lt_of_le (h.running hbusy) (nCtx_le _)) hv).2

/-! ### The steps of CU -/

theorem contextsOk_cipherComplete {s : State} (h : ContextsOk s) : ContextsOk (cipherComplete s) :=
  h.of_idle rfl rfl rfl

theorem contextsOk_setCuBus {s : State} (h : ContextsOk s) (bus : List Bool) : ContextsOk (setCuBus s bus) :=
  h.of_same rfl rfl rfl rfl rfl id

section
variable {s : State} (h : ContextsOk s) (hbusy : s.cu.status.busy = true)
include h hbusy

theorem contextsOk_cipherBusError : ContextsOk (cipherBusError s) := by
  refine h.of_frame hbusy (cipherBusError_frame s) (fun hv => ?_) (fun hb => ?_)
  · rw [cipherBusError_context] at hv
    cases hv
  · simp at hb

theorem contextsOk_newReadKey : ContextsOk (newReadKey s) := by
  obtain ⟨kb, bus, -, e⟩ | ⟨bus, e⟩ := newReadKey_cases s
  · have hperm : Permutation ((newReadKey s).cu.context s.cu.ctx.toNat).sbox := by
      rw [e, show s.cu.ctx = (setCuBus s bus).cu.ctx from rfl, newKeyed_context]
      exact identityBox_permutation
    exact h.of_frame hbusy (newReadKey_frame s) (fun _ => hperm) (fun _ _ _ => hperm)
  · rw [e]
    exact contextsOk_cipherBusError (contextsOk_setCuBus h bus) hbusy

theorem contextsOk_newSchedule (hop : s.cu.op = .new) (hph : s.cu.phase = .schedule) : ContextsOk (newSchedule s) := by
  have hperm : Permutation ((newSchedule s).cu.context s.cu.ctx.toNat).sbox := by
    rw [newSchedule_context]
    exact (h.keying hbusy hop hph).swap _ _
  exact h.of_frame hbusy (newSchedule_frame s) (fun _ => hperm) (fun _ _ _ => hperm)

theorem contextsOk_newScheduleAll : ContextsOk (newScheduleAll s) := by
  have hperm : Permutation ((newScheduleAll s).cu.context s.cu.ctx.toNat).sbox := by
    rw [newScheduleAll_context]
    exact keyScheduleGivesAPermutation _ _
  exact h.of_frame hbusy (newScheduleAll_frame s) (fun _ => hperm) (fun _ _ _ => hperm)

theorem contextsOk_newFinish (hperm : Permutation (s.cu.context s.cu.ctx.toNat).sbox) : ContextsOk (newFinish s) := by
  refine h.of_frame hbusy (newFinish_frame s) (fun _ => ?_) (fun hb => ?_)
  · rw [newFinish_context]
    exact hperm
  · simp at hb

theorem contextsOk_freeFinish : ContextsOk (freeFinish s) := by
  refine h.of_frame hbusy (freeFinish_frame s) (fun hv => ?_) (fun hb => ?_)
  · rw [freeFinish_context] at hv
    cases hv
  · simp at hb

theorem contextsOk_xformByte (hop : s.cu.op = .xform) (hn : s.cu.n < s.cu.len.toNat) : ContextsOk (xformByte s) := by
  obtain ⟨-, -, e⟩ | ⟨bus, e⟩ := xformByte_cases s
  · refine h.of_frame hbusy (xformByte_frame s hop hn) (fun hv => ?_) (fun _ hnew => ?_)
    · rw [e, show s.cu.ctx = (setCuBus s s.cu.bus.tail.tail).cu.ctx from rfl, xformWrite_context] at hv ⊢
      exact (h.named hbusy hv).swap _ _
    · cases hop.symm.trans hnew
  · rw [e]
    exact contextsOk_cipherBusError (contextsOk_setCuBus h bus) hbusy

theorem contextsOk_cipherTurn : ContextsOk (cipherTurn s) := by
  unfold cipherTurn
  rw [if_pos hbusy]
  split
  · split
    · exact contextsOk_newReadKey h hbusy
    · split
      · exact contextsOk_newSchedule h hbusy ‹_› ‹_›
      · exact contextsOk_newFinish h hbusy (h.keying hbusy ‹_› ‹_›)
  · split
    · exact contextsOk_xformByte h hbusy ‹_› ‹_›
    · exact contextsOk_cipherComplete h
  · exact contextsOk_freeFinish h hbusy

theorem contextsOk_newRun : ContextsOk (newRun s) := by
  have hread := contextsOk_newReadKey h hbusy
  unfold newRun
  dsimp only
  split
  case isFalse => exact hread
  case isTrue hb =>
    refine contextsOk_newFinish (contextsOk_newScheduleAll hread hb) hb ?_
    rw [newScheduleAll_ctx, newScheduleAll_context]
    exact keyScheduleGivesAPermutation _ _

theorem contextsOk_xformBytes (n : Nat) (hop : s.cu.op = .xform) (hn : s.cu.n + n ≤ s.cu.len.toNat) :
    ContextsOk (xformBytes n s) := by
  induction n generalizing s with
  | zero => exact h
  | succ n ih =>
    have hbyte := contextsOk_xformByte h hbusy hop (by omega)
    have hf := xformByte_frame s hop (by omega)
    unfold xformBytes
    dsimp only
    split
    case isFalse => exact hbyte
    case isTrue hb =>
      refine ih hbyte hb (hf.op.trans hop) ?_
      rw [xformByte_n s hb, hf.len]
      omega

theorem contextsOk_xformRun (hop : s.cu.op = .xform) (hn : s.cu.n = 0) : ContextsOk (xformRun s) := by
  have hbytes := contextsOk_xformBytes h hbusy s.cu.len.toNat hop (by omega)
  unfold xformRun
  dsimp only
  split
  · exact contextsOk_cipherComplete hbytes
  · exact hbytes

theorem contextsOk_cipherRun (hn : s.cu.n = 0) : ContextsOk (cipherRun s) := by
  unfold cipherRun
  split
  · exact contextsOk_newRun h hbusy
  · exact contextsOk_xformRun h hbusy ‹_› hn
  · exact contextsOk_freeFinish h hbusy

end

/-! ### The invariant -/

/-- A context number below N_CTX survives the latch of 8 bits (R30). -/
theorem latched_ctx {c : Nat} {p : Params} (h : c < nCtx p) : (BitVec.ofNat 8 c).toNat = c :=
  Nat.mod_eq_of_lt (by have := nCtx_le p; omega)

/-- A command that passed its checks names an existing context and has not begun to key it. -/
theorem contextsOk_cipherStart {s : State} (h : ContextsOk s) {op : CipherOp} {c : Nat} (hc : c < nCtx s.params) :
    ContextsOk { s with cu := cipherStart op c s.cu } where
  perm := h.perm
  running _ := by simpa [latched_ctx hc] using hc
  keying _ _ hph := by cases hph

theorem cipherCommand_contextsOk {op : CipherOp} {c : Nat} {s t : State} (hok : ContextsOk s)
    (h : cipherCommand op c s = .next t) : ContextsOk t := by
  obtain ⟨-, h'⟩ | ⟨-, e, -, h'⟩ | ⟨-, hcheck, ⟨-, h'⟩ | h' | h' | ⟨-, h'⟩ | ⟨-, h'⟩⟩ := cipherCommand_cases op c s <;>
    cases h'.symm.trans h
  · exact hok.of_same rfl rfl rfl rfl rfl id
  · exact hok.of_idle rfl rfl rfl
  · exact hok.of_idle rfl rfl rfl
  · exact contextsOk_cipherRun (contextsOk_cipherStart hok (cipherCheck_exists hcheck)) rfl rfl
  · exact contextsOk_cipherStart hok (cipherCheck_exists hcheck)

theorem illegalCipher_contextsOk {s : State} (h : ContextsOk s) : ContextsOk (illegalCipher s) :=
  h.of_same rfl rfl rfl rfl rfl fun hb => by
    by_contra hidle
    simp [illegalCipher, hidle] at hb

theorem Change.contextsOk {s t : State} (h : Change s t) (hok : ContextsOk s) : ContextsOk t := by
  cases h with
  | answered | memWrite | deRegs | deStatus | deIllegal => exact hok.of_same_cu rfl rfl
  | cuRegs => exact hok.of_same rfl rfl rfl rfl rfl id
  | cuStatus v => exact hok.of_same rfl rfl rfl rfl rfl fun hb => by simpa [Status.hostWrite_eq] using hb
  | cuIllegal => exact illegalCipher_contextsOk hok
  | digest h =>
    obtain ⟨hcu, hparams⟩ := digestCommand_leaves h
    exact hok.of_same_cu hparams hcu
  | cipher h => exact cipherCommand_contextsOk hok h
  | deTurn =>
    obtain ⟨hcu, hparams, -⟩ := digestTurn_leaves s
    exact hok.of_same_cu hparams hcu
  | cuTurn =>
    cases hb : s.cu.status.busy
    · simpa [cipherTurn, hb] using hok
    · exact contextsOk_cipherTurn hok hb
  | reset => exact contextsOk_reset _ rfl rfl

/-- Settles O43: every change a step can make keeps the contexts sound. -/
theorem stepKeepsContextsPermutations : Obligations.StepKeepsContextsPermutations := by
  intro s t hok h
  obtain ⟨l, hchange⟩ := step_change h
  exact hchange.contextsOk (hok.of_same_cu rfl rfl)

/-- Settles O45: after reset no flag is set, nothing is in progress and no context is valid. -/
theorem resetMeetsTheInvariants : Obligations.ResetMeetsTheInvariants := by
  refine ⟨Status.reset_ok, Status.reset_ok, reset_mem_wf, contextsOk_reset _ rfl rfl, ?_, fun hb => by cases hb⟩
  exact ⟨fun r hr => (List.not_mem_nil hr).elim, rfl⟩

end Sys2Proof.Machine
end

section
/-! The register port: what each register reads, and what a write to it leaves alone (R31 to R46). -/

namespace Sys2Proof.Machine

/-! ### The offset table -/

/-- The register at an offset is a row of the offset table (R31). -/
theorem regAt_mem {o : BitVec 9} {r : Reg} (h : regAt o = some r) : (o, r) ∈ regMap := by
  obtain ⟨l₁, l₂, hmap, -⟩ := List.lookup_eq_some_iff.mp h
  simp [hmap]

/-- No register stands at two offsets (R31). -/
theorem regAt_injective {o o' : BitVec 9} {r : Reg} (h : regAt o = some r) (h' : regAt o' = some r) : o = o' := by
  have hrows : ∀ p ∈ regMap, ∀ q ∈ regMap, p.2 = q.2 → p.1 = q.1 := by decide
  exact hrows _ (regAt_mem h) _ (regAt_mem h') rfl

/-- An offset outside the three lists of the statements has no register (R31, R32). -/
theorem regAt_unmapped {o : BitVec 9} (h : unmapped o) : regAt o = none := by
  have hrows : ∀ p ∈ regMap, ¬ unmapped p.1 := by decide
  cases hr : regAt o with
  | none => rfl
  | some r => exact absurd h (hrows _ (regAt_mem hr))

theorem readOffset_mapped {o : BitVec 9} {r : Reg} (h : regAt o = some r) (s : State) :
    readOffset s o = readReg s r := by simp [readOffset, h]

theorem readOffset_unmapped {o : BitVec 9} (h : regAt o = none) (s : State) : readOffset s o = 0 := by
  simp [readOffset, h]

/-! ### Read-only registers and unmapped offsets -/

/-- A read-only register ignores a write (R38, R44, R45, R46). -/
theorem step_regWrite_readOnly {o : BitVec 9} (h : o ∈ readOnlyOffsets) (s : State) (v : Word) (rest : List Event) :
    step { s with inputs := .regWrite o 32 v :: rest } = .next { s with inputs := rest } := by
  simp only [readOnlyOffsets, List.mem_cons, List.not_mem_nil, or_false] at h
  obtain rfl | rfl | rfl | rfl | rfl | rfl | rfl | rfl := h <;> rfl

/-- Settles O30: the offset table has no row for an unmapped offset. -/
theorem readOnlyAndUnmappedOffsetsIgnoreWrites : Obligations.ReadOnlyAndUnmappedOffsetsIgnoreWrites := by
  refine ⟨fun s o v rest hal ho => ?_, fun s o ho => readOffset_unmapped (regAt_unmapped ho) s⟩
  obtain hro | hun := ho
  · exact step_regWrite_readOnly hro s v rest
  · exact step_regWrite_unmapped hal (regAt_unmapped hun) s v rest

/-! ### Parameter registers -/

/-- The parameter registers (R35 to R37, R41 to R43). -/
def Reg.isParam : Reg → Bool
  | .deSrcLo | .deSrcHi | .deLenLo | .deLenHi | .deDstLo | .deDstHi => true
  | .cuSrcLo | .cuSrcHi | .cuLenLo | .cuLenHi | .cuDstLo | .cuDstHi => true
  | _ => false

/-- What a write to a parameter register does: it stores the value there, and only `regs` of one unit changes. -/
structure ParamStored (s t : State) (r : Reg) (v : Word) : Prop where
  same : readReg t r = v
  others : ∀ r', r' ≠ r → readReg t r' = readReg s r'
  regsOnly : (∃ q, t = setDeRegs s q) ∨ ∃ q, t = setCuRegs s q

theorem writeReg_param {r : Reg} (hr : r.isParam = true) (s : State) (v : Word) :
    ∃ t, writeReg s v r = .next t ∧ ParamStored s t r v := by
  cases r with
  | deSrcLo | deSrcHi | deLenLo | deLenHi | deDstLo | deDstHi =>
    exact ⟨_, rfl, rfl, fun r' hne => by cases r' <;> first | contradiction | rfl, .inl ⟨_, rfl⟩⟩
  | cuSrcLo | cuSrcHi | cuLenLo | cuLenHi | cuDstLo | cuDstHi =>
    exact ⟨_, rfl, rfl, fun r' hne => by cases r' <;> first | contradiction | rfl, .inr ⟨_, rfl⟩⟩
  | _ => cases hr

theorem paramOffset_reg {o : BitVec 9} (h : o ∈ paramOffsets) :
    aligned o ∧ ∃ r, regAt o = some r ∧ r.isParam = true := by
  have hrows : ∀ o ∈ paramOffsets, aligned o ∧ (regAt o).any Reg.isParam = true := by decide
  simpa only [Option.any_eq_true] using hrows o h

/-- Registers other than the one at `o` read alike where every other offset does. -/
theorem readOffset_others {s t : State} {o : BitVec 9} {r : Reg} (hr : regAt o = some r)
    (h : ∀ r', r' ≠ r → readReg t r' = readReg s r') {o' : BitVec 9} (hne : o' ≠ o) :
    readOffset t o' = readOffset s o' := by
  cases hr' : regAt o' with
  | none => rw [readOffset_unmapped hr', readOffset_unmapped hr']
  | some r' =>
    rw [readOffset_mapped hr', readOffset_mapped hr']
    refine h r' fun e => hne ?_
    subst e
    exact regAt_injective hr' hr

/-- Settles O29: the write stores the value in the one register and leaves everything outside `regs` alone. -/
theorem parameterRegistersReadBack : Obligations.ParameterRegistersReadBack := by
  intro s v rest o ho
  obtain ⟨hal, r, hr, hparam⟩ := paramOffset_reg ho
  obtain ⟨t, ht, hstored⟩ := writeReg_param hparam { s with inputs := rest } v
  refine ⟨t, (step_regWrite hal hr s v rest).trans ht, (readOffset_mapped hr t).trans hstored.same, ?_, ?_⟩
  · exact fun o' hne => readOffset_others (s := { s with inputs := rest }) hr hstored.others hne
  · obtain ⟨q, rfl⟩ | ⟨q, rfl⟩ := hstored.regsOnly <;>
      exact ⟨rfl, rfl, rfl, rfl, rfl, rfl, rfl, rfl, rfl, rfl, rfl, rfl, rfl, rfl⟩

/-! ### STATUS -/

/-- The layout of STATUS, bits 0 to 3 (R34, R40). -/
theorem Status.view_flags (st : Status) :
    st.view.getLsbD 0 = st.busy ∧ st.view.getLsbD 1 = st.done ∧ st.view.getLsbD 2 = st.err ∧
      st.view.getLsbD 3 = st.ovr := by
  simp only [Status.view, BitVec.getLsbD_append]
  simp

/-- The layout of STATUS above bit 3: ERRCODE in bits 11:8, every other bit 0 (R34, R40). -/
theorem Status.view_fields (st : Status) :
    st.view.extractLsb' 4 4 = 0 ∧ st.view.extractLsb' 8 4 = st.errCode ∧ st.view.extractLsb' 12 20 = 0 := by
  refine ⟨?_, ?_, ?_⟩ <;> ext k hk <;>
    simp only [Status.view, BitVec.getElem_extractLsb', BitVec.getLsbD_append]
  · simp (disch := omega) [if_pos]
  · simp (disch := omega) [if_pos]
  · simp (disch := omega) [if_neg]

/-- Settles O28: both STATUS registers read through the one view. -/
theorem statusReadsItsFields : Obligations.StatusReadsItsFields := by
  intro s p hp
  have hread : readOffset s p.1 = p.2.view := by
    simp only [List.mem_cons, List.not_mem_nil, or_false] at hp
    obtain rfl | rfl := hp <;> rfl
  obtain ⟨hbusy, hdone, herr, hovr⟩ := p.2.view_flags
  rw [hread]
  exact ⟨hbusy, hdone, herr, hovr, p.2.view_fields⟩

/-! ### CU_VALID -/

/-- Bit `c` is `f c` below `n` and 0 from `n` on. -/
theorem bitsBelow_getLsbD (f : Nat → Bool) (n : Nat) {c : Nat} (hc : c < 32) :
    (bitsBelow f n).getLsbD c = (decide (c < n) && f c) := by
  induction n with
  | zero => simp [bitsBelow]
  | succ n ih =>
    have hbit : (if f n then 1#32 <<< n else 0).getLsbD c = (decide (c = n) && f n) := by
      cases f n
      · simp
      · simp only [if_true, BitVec.getLsbD_shiftLeft, BitVec.getLsbD_one]
        grind
    rw [bitsBelow, BitVec.getLsbD_or, ih, hbit]
    grind

/-- Settles O34: below N_CTX the bit is VALID, unless the command in progress names the context. -/
theorem cuValidReadsTheContexts : Obligations.CuValidReadsTheContexts := by
  intro s c hc
  rw [readOffset_mapped (r := .cuValid) rfl, readReg, CipherUnit.validView, bitsBelow_getLsbD _ _ hc]
  refine ⟨fun hn => by simp [Nat.not_lt.mpr hn], fun hn hfree => ?_⟩
  have hnamed : ¬ (s.cu.status.busy = true ∧ c = s.cu.ctx.toNat) := by
    rintro ⟨hbusy, hnum⟩
    obtain hidle | hother := hfree
    · exact absurd (hidle.symm.trans hbusy) (by decide)
    · exact hother hnum
  simp [CipherUnit.validBit, hn, hnamed]

/-! ### DE_H0 to DE_H4, ENG_ID, ENG_PARAM -/

/-- Settles O35: with DE idle the read is of the accumulator words themselves. -/
theorem digestRegistersReadTheAccumulators : Obligations.DigestRegistersReadTheAccumulators := by
  intro s hidle
  have hread : ∀ (o : BitVec 9) (n : Fin 5), regAt o = some (.deH n) → readOffset s o = s.de.h.word n.val := by
    intro o n ho
    rw [readOffset_mapped ho, readReg, if_neg (ne_true_of_eq_false hidle)]
  exact ⟨hread _ 0 rfl, hread _ 1 rfl, hread _ 2 rfl, hread _ 3 rfl, hread _ 4 rfl⟩

/-- The fields of ENG_PARAM (R46). -/
theorem engParam_fields (p : Params) :
    ((engParam p).extractLsb' 0 6).toNat = nCtx p ∧ (engParam p).extractLsb' 6 2 = 0 ∧
      (engParam p).getLsbD 8 = true ∧ (engParam p).getLsbD 9 = true ∧ (engParam p).getLsbD 10 = true ∧
      (engParam p).extractLsb' 11 21 = 0 := by
  have hcount : (engParam p).extractLsb' 0 6 = BitVec.ofNat 6 (nCtx p) := by
    ext k hk
    simp only [engParam, BitVec.getElem_extractLsb', BitVec.getLsbD_append]
    simp [hk]
  refine ⟨?_, ?_, ?_, ?_, ?_, ?_⟩
  · rw [hcount, BitVec.toNat_ofNat]
    exact Nat.mod_eq_of_lt (by have := nCtx_le p; omega)
  · ext k hk
    simp only [engParam, BitVec.getElem_extractLsb', BitVec.getLsbD_append]
    simp (disch := omega) [if_pos]
  · simp only [engParam, BitVec.getLsbD_append]
    rfl
  · simp only [engParam, BitVec.getLsbD_append]
    rfl
  · simp only [engParam, BitVec.getLsbD_append]
    rfl
  · ext k hk
    simp only [engParam, BitVec.getElem_extractLsb', BitVec.getLsbD_append]
    simp (disch := omega)

/-- Settles O33: both offsets are read-only, and N_CTX fits the field NCTX. -/
theorem constantRegistersRead : Obligations.ConstantRegistersRead := by
  refine ⟨fun s v rest o ho => step_regWrite_readOnly ?_ s v rest, fun s => ⟨rfl, engParam_fields s.params⟩⟩
  have hro : ∀ o ∈ [(0x1F0 : BitVec 9), 0x1F4], o ∈ readOnlyOffsets := by decide
  exact hro o ho

/-- Settles O40: each row of the offset table but the two constants reads 0. -/
theorem resetStateReadsZero : Obligations.ResetStateReadsZero := by
  intro o hid hparam
  have hrows : ∀ p ∈ regMap, p.1 ≠ 0x1F0 → p.1 ≠ 0x1F4 → readReg State.reset p.2 = 0 := by decide
  cases hr : regAt o with
  | none => exact readOffset_unmapped hr _
  | some r => exact (readOffset_mapped hr _).trans (hrows _ (regAt_mem hr) hid hparam)

end Sys2Proof.Machine
end

section
/-! Commands in progress: how an accepted command starts at a pace of turns (R48), and that turns end it (R51, R152). -/

namespace Sys2Proof.Machine

/-! ### The checks of an accepted command pass -/

/-- A buffer of at least one byte that fits does not run past the top of memory (R94, R113, R124). -/
theorem pastTop_of_fits {base : Addr} {n : Nat} (h : fits base n) : pastTop base n = false := by
  simp only [pastTop, decide_eq_false_iff_not]
  have := base.isLt
  omega

/-- Equal or disjoint buffers do not overlap partially (R113, R117). -/
theorem partialOverlap_of_placed {src dst : Addr} {n : Nat} (h : placed src dst n) : partialOverlap src dst n = false := by
  simp only [partialOverlap, Bool.and_eq_false_iff, decide_eq_false_iff_not]
  obtain heq | hbelow | habove := h
  · exact .inl (.inl (not_not.mpr heq))
  · exact .inr (by omega)
  · exact .inl (.inr (by omega))

theorem DigestAccepted.check {hex : Bool} {s : State} (h : DigestAccepted hex s) : digestCheck hex s.de.regs = none := by
  have hlen := Nat.not_lt.mpr h.length
  have hsrc : ¬ (0 < s.de.regs.len.toNat ∧ pastTop s.de.regs.src s.de.regs.len.toNat = true) := fun ⟨hpos, hpast⟩ => by
    simp [pastTop_of_fits (h.source hpos)] at hpast
  have hdst : ¬ (hex = true ∧ pastTop s.de.regs.dst hexBytes = true) := fun ⟨hhex, hpast⟩ => by
    simp [pastTop_of_fits (h.dest hhex)] at hpast
  rw [digestCheck, if_neg hlen, if_neg hsrc, if_neg hdst]

theorem NewAccepted.check {c : Nat} {s : State} (h : NewAccepted c s) :
    cipherCheck .new c (nCtx s.params) s.cu = none := by
  have hexist := Nat.not_le.mpr h.exist
  simp [cipherCheck, newCheck, hexist, h.fresh, h.keyed.ne', pastTop_of_fits h.source]

theorem XformAccepted.check {c : Nat} {s : State} (h : XformAccepted c s) :
    cipherCheck .xform c (nCtx s.params) s.cu = none := by
  have hexist := Nat.not_le.mpr h.exist
  simp [cipherCheck, xformCheck, hexist, h.live, pastTop_of_fits h.source, pastTop_of_fits h.dest,
    partialOverlap_of_placed h.place]

theorem CipherAccepted.check_free {c : Nat} {s : State} (h : CipherAccepted .free c s) :
    cipherCheck .free c (nCtx s.params) s.cu = none := by
  simp [cipherCheck, Nat.not_le.mpr h.exist]

/-! ### An accepted command starts -/

/-- An accepted digest command starts and, at the pace whole, runs to its end (R48, R67). -/
theorem DigestAccepted.command {hex : Bool} {s : State} (h : DigestAccepted hex s) (v : Bool) :
    digestCommand v hex s = .next (match s.de.pace with
      | .whole => digestRun { s with de := digestStart v hex s.de }
      | .stepped => { s with de := digestStart v hex s.de }) := by
  simp only [digestCommand, h.idle, h.check, h.ordinary, h.contract]
  cases s.de.pace <;> rfl

/-- A cipher command that passes its checks and has something to do starts and, at the pace whole, runs to its end
(R48, R67). -/
theorem CipherAccepted.command {op : CipherOp} {c : Nat} {s : State} (h : CipherAccepted op c s)
    (hcheck : cipherCheck op c (nCtx s.params) s.cu = none) (hsome : emptyXform op s.cu.regs = false) :
    cipherCommand op c s = .next (match s.cu.pace with
      | .whole => cipherRun { s with cu := cipherStart op c s.cu }
      | .stepped => { s with cu := cipherStart op c s.cu }) := by
  simp only [cipherCommand, h.idle, hcheck, hsome, h.ordinary, h.contract]
  cases s.cu.pace <;> rfl

/-- Settles O12: at a pace of turns the command is left where it starts. -/
theorem acceptedDigestCommandIsInProgress : Obligations.AcceptedDigestCommandIsInProgress := by
  intro s f hf hacc hpace
  rw [exec_digestForms hf, hacc.command, hpace]
  exact ⟨_, rfl, rfl, rfl, rfl, rfl, rfl, rfl, rfl, rfl, rfl⟩

/-- Settles O23: each of the three operations passes its checks and is left where it starts. -/
theorem acceptedCipherCommandIsInProgress : Obligations.AcceptedCipherCommandIsInProgress := by
  intro s c hpace f hf hacc
  have hstart : CipherAccepted f.2 c s ∧ cipherCheck f.2 c (nCtx s.params) s.cu = none ∧
      emptyXform f.2 s.cu.regs = false := by
    obtain ⟨hnew, hxform, hfree⟩ := hacc
    cases hop : f.2 with
    | new => exact ⟨(hnew hop).toCipherAccepted, (hnew hop).check, rfl⟩
    | xform => exact ⟨(hxform hop).toCipherAccepted, (hxform hop).check, by simp [emptyXform, (hxform hop).some.ne']⟩
    | free => exact ⟨hfree hop, (hfree hop).check_free, rfl⟩
  obtain ⟨haccepted, hcheck, hsome⟩ := hstart
  rw [exec_cipherForms hf, haccepted.command hcheck hsome, hpace]
  exact ⟨_, rfl, rfl, latched_ctx haccepted.exist, rfl, rfl, rfl, rfl, rfl, rfl, rfl, rfl⟩

/-! ### Turns end every command -/

/-- A bound on the turns DE still takes: for each block left its load, 80 rounds and the fold, and the hex string. -/
def digestWork (d : DigestEngine) : Nat :=
  if d.status.busy then
    match d.phase with
    | .load => 82 * (blockCount d.len.toNat - d.blk) + 83
    | .rounds => 82 * (blockCount d.len.toNat - d.blk) + (80 - d.t) + 2
    | .hex => 1
  else 0

/-- A bound on the turns CU still takes: the key bytes, the schedule and its end; the bytes and the completion. -/
def cipherWork (u : CipherUnit) : Nat :=
  if u.status.busy then
    match u.op with
    | .new =>
      match u.phase with
      | .readKey => 258
      | .schedule => 256 - u.k + 1
    | .xform => u.len.toNat - u.n + 1
    | .free => 1
  else 0

theorem digestTurn_work {s : State} (h : s.de.status.busy = true) :
    digestWork (digestTurn s).de < digestWork s.de := by
  unfold digestTurn
  rw [if_pos h]
  cases hphase : s.de.phase with
  | load => obtain ⟨b, bus, -, e⟩ | ⟨bus, -, e⟩ := digestLoad_cases s <;> simp [e, digestWork, h, hphase]
  | rounds =>
    dsimp only
    split
    · simp only [digestWork, digestRound_status, digestRound_phase, digestRound_len, digestRound_blk, digestRound_t,
        h, hphase, if_true]
      omega
    · unfold digestFold
      split
      · simp only [digestWork, digestFolded_status, digestFolded_phase, digestFolded_len, digestFolded_blk, h, hphase,
          if_true]
        omega
      · split <;> simp [digestWork, h, hphase]
  | hex => obtain ⟨bus, e⟩ | ⟨bus, e⟩ := digestHex_cases s <;> simp [e, digestWork, h, hphase]

theorem cipherTurn_work {s : State} (h : s.cu.status.busy = true) :
    cipherWork (cipherTurn s).cu < cipherWork s.cu := by
  unfold cipherTurn
  rw [if_pos h]
  cases hop : s.cu.op with
  | new =>
    cases hphase : s.cu.phase with
    | readKey =>
      obtain ⟨kb, bus, -, e⟩ | ⟨bus, e⟩ := newReadKey_cases s <;> simp [e, cipherWork, h, hop, hphase]
    | schedule =>
      dsimp only
      split
      · simp only [cipherWork, newSchedule_status, newSchedule_op, newSchedule_phase, newSchedule_k, h, hop, hphase,
          if_true]
        omega
      · simp [cipherWork, h, hop, hphase]
  | xform =>
    dsimp only
    split
    · obtain ⟨-, -, e⟩ | ⟨bus, e⟩ := xformByte_cases s <;> rw [e]
      · simp only [cipherWork, xformWrite_status, xformWrite_op, xformWrite_len, xformWrite_n, setCuBus_status,
          setCuBus_op, setCuBus_len, setCuBus_n, h, hop, if_true]
        omega
      · simp [cipherWork, h, hop]
    · simp [cipherWork, h, hop]
  | free => simp [cipherWork, h, hop]

/-- A bound on the idle turns until both units are idle. -/
def State.work (s : State) : Nat := digestWork s.de + cipherWork s.cu

theorem idleTurn_inputs (s : State) : (idleTurn s).inputs = s.inputs := by
  unfold idleTurn
  split
  · exact (digestTurn_leaves s).2.2
  · exact (cipherTurn_frame s).inputs

/-- While a unit has a command in progress the idle turn brings its end nearer (R152). -/
theorem idleTurn_work {s : State} (h : ¬ s.idle) : (idleTurn s).work < s.work := by
  cases hde : s.de.status.busy
  · have hcu : s.cu.status.busy = true := by simpa [State.idle, hde] using h
    rw [idleTurn_deIdle hde, State.work, State.work, (cipherTurn_frame s).de]
    exact Nat.add_lt_add_left (cipherTurn_work hcu) _
  · rw [idleTurn_deBusy hde, State.work, State.work, (digestTurn_leaves s).1]
    exact Nat.add_lt_add_right (digestTurn_work hde) _

theorem run_step {s t : State} (h : step s = .next t) (n : Nat) :
    Host.Core.run Sys2Proof.core (n + 1) s = Host.Core.run Sys2Proof.core n t := by
  simp only [Host.Core.run, show Sys2Proof.core.step s = .next t from h]

/-- Settles O47: by induction on the bound on the turns still to take. -/
theorem everyCommandInProgressCompletes : Obligations.EveryCommandInProgressCompletes := by
  intro s
  induction hw : s.work using Nat.strong_induction_on generalizing s with
  | _ w ih =>
    intro hin
    by_cases hidle : s.idle
    · exact ⟨0, s, rfl, hidle⟩
    · obtain ⟨n, t, hrun, ht⟩ := ih _ (hw ▸ idleTurn_work hidle) (idleTurn s) rfl ((idleTurn_inputs s).trans hin)
      exact ⟨n + 1, t, (run_step (step_noInput hin) n).trans hrun, ht⟩

end Sys2Proof.Machine
end

section
/-! Turns and whole commands (R67, R51, R152): a unit's turns end in the state of the whole command, so that what
every turn keeps, the whole command keeps. -/

namespace Sys2Proof.Machine

/-! ### Any number of turns -/

/-- Some number of turns `f` leads from one state to another. -/
def Turns (f : State → State) (s t : State) : Prop := ∃ n, f^[n] s = t

section
variable {f : State → State} {s t u : State}

theorem Turns.refl : Turns f s s := ⟨0, rfl⟩

theorem Turns.one (h : f s = t) : Turns f s t := ⟨1, h⟩

theorem Turns.trans (h : Turns f s t) (k : Turns f t u) : Turns f s u := by
  obtain ⟨m, rfl⟩ := h
  obtain ⟨n, rfl⟩ := k
  exact ⟨n + m, Function.iterate_add_apply f n m s⟩

/-- What one turn keeps, any number of turns keeps. -/
theorem Turns.keeps {P : State → Prop} (hf : ∀ s, P s → P (f s)) (h : Turns f s t) (hs : P s) : P t := by
  obtain ⟨n, rfl⟩ := h
  exact Function.Iterate.rec P hs hf n

/-- The machine, given `n` turns of a unit as its inputs, takes them in `n` steps. -/
theorem run_turns {e : Event}
    (hstep : ∀ (s : State) (l : List Event), step { s with inputs := e :: l } = .next (f { s with inputs := l }))
    (hinputs : ∀ (s : State) (l : List Event), f { s with inputs := l } = { f s with inputs := l }) (rest : List Event)
    (n : Nat) (s : State) :
    Host.Core.run Sys2Proof.core n { s with inputs := List.replicate n e ++ rest } =
      .next { f^[n] s with inputs := rest } := by
  induction n generalizing s with
  | zero => rfl
  | succ n ih =>
    rw [Function.iterate_succ_apply, ← ih (f s), ← hinputs]
    exact run_step (hstep s (List.replicate n e ++ rest)) n

end

/-! ### DE's turns -/

theorem digestTurn_load {s : State} (hbusy : s.de.status.busy = true) (hphase : s.de.phase = .load) :
    digestTurn s = digestLoad s := by simp [digestTurn, hbusy, hphase]

theorem digestTurn_round {s : State} (hbusy : s.de.status.busy = true) (hphase : s.de.phase = .rounds)
    (ht : s.de.t < 80) : digestTurn s = digestRound s := by simp [digestTurn, hbusy, hphase, ht]

theorem digestTurn_fold {s : State} (hbusy : s.de.status.busy = true) (hphase : s.de.phase = .rounds)
    (ht : s.de.t = 80) : digestTurn s = digestFold s := by simp [digestTurn, hbusy, hphase, ht]

theorem digestTurn_hex {s : State} (hbusy : s.de.status.busy = true) (hphase : s.de.phase = .hex) :
    digestTurn s = digestHex s := by simp [digestTurn, hbusy, hphase]

/-- DE after its first `k` rounds of a block (R88, R89). -/
def digestRoundsTo (k : Nat) (s : State) : State :=
  { s with de := { s.de with work := (List.range k).foldl (shaRound s.de.sched) s.de.work, t := k } }

theorem digestRound_roundsTo (k : Nat) (s : State) : digestRound (digestRoundsTo k s) = digestRoundsTo (k + 1) s := by
  simp [digestRound, digestRoundsTo, List.range_succ]

theorem turns_roundsTo {s : State} (hbusy : s.de.status.busy = true) (hphase : s.de.phase = .rounds)
    (ht : s.de.t = 0) {k : Nat} (hk : k ≤ 80) : Turns digestTurn s (digestRoundsTo k s) := by
  induction k with
  | zero =>
    have hzero : digestRoundsTo 0 s = s := by
      show { s with de := { s.de with t := 0 } } = s
      rw [← ht]
    rw [hzero]
    exact .refl
  | succ k ih =>
    refine (ih (Nat.le_of_succ_le hk)).trans (.one ?_)
    rw [digestTurn_round (s := digestRoundsTo k s) hbusy hphase hk, digestRound_roundsTo]

/-- The 80 rounds and the fold of a loaded block. -/
theorem turns_block {s : State} (hbusy : s.de.status.busy = true) (hphase : s.de.phase = .rounds) (ht : s.de.t = 0) :
    Turns digestTurn s (digestFold (digestRounds s)) :=
  (turns_roundsTo hbusy hphase ht le_rfl).trans (.one (digestTurn_fold (s := digestRounds s) hbusy hphase rfl))

/-- A load that meets no bus error leaves DE before the first round. -/
theorem digestLoad_busy {s : State} (h : (digestLoad s).de.status.busy = true) :
    (digestLoad s).de.phase = .rounds ∧ (digestLoad s).de.t = 0 := by
  obtain ⟨b, bus, -, e⟩ | ⟨bus, -, e⟩ := digestLoad_cases s <;> rw [e] at h ⊢
  · exact ⟨rfl, rfl⟩
  · simp at h

/-- A block that meets no bus error: its load, its rounds and its fold. -/
theorem turns_blockRun {s : State} (hbusy : s.de.status.busy = true) (hphase : s.de.phase = .load)
    (hloaded : (digestLoad s).de.status.busy = true) :
    Turns digestTurn s (digestFold (digestRounds (digestLoad s))) := by
  obtain ⟨hrounds, ht⟩ := digestLoad_busy hloaded
  exact (Turns.one (digestTurn_load hbusy hphase)).trans (turns_block hloaded hrounds ht)

/-- The last fold leaves a command still in progress before its hex string (R95). -/
theorem digestFold_last {s : State} (hlast : s.de.blk + 1 = blockCount s.de.len.toNat)
    (h : (digestFold s).de.status.busy = true) : (digestFold s).de.phase = .hex := by
  unfold digestFold at h ⊢
  rw [if_neg (by omega)] at h ⊢
  split at h
  · rw [if_pos ‹_›]
    rfl
  · simp at h

/-- Turns take the block loop to its end, and leave a command still in progress before its hex string. -/
theorem turns_digestBlocks (n : Nat) {s : State} (hbusy : s.de.status.busy = true) (hphase : s.de.phase = .load)
    (hn : s.de.blk + (n + 1) = blockCount s.de.len.toNat) :
    Turns digestTurn s (digestBlocks (n + 1) s) ∧
      ((digestBlocks (n + 1) s).de.status.busy = true → (digestBlocks (n + 1) s).de.phase = .hex) := by
  have hlen := (digestLoad_frame s).len
  induction n generalizing s with
  | zero =>
    simp only [digestBlocks]
    split
    case isTrue hloaded =>
      refine ⟨turns_blockRun hbusy hphase hloaded, digestFold_last ?_⟩
      simpa [digestLoad_blk, hlen] using hn
    case isFalse herror => exact ⟨.one (digestTurn_load hbusy hphase), fun h => absurd h herror⟩
  | succ n ih =>
    rw [digestBlocks]
    split
    case isTrue hloaded =>
      have hnext : digestFold (digestRounds (digestLoad s)) = digestFolded (digestRounds (digestLoad s)) :=
        if_pos (by simp only [digestRounds_blk, digestRounds_len, digestLoad_blk, hlen]; omega)
      have hblock := hnext ▸ turns_blockRun hbusy hphase hloaded
      rw [hnext]
      obtain ⟨hturns, hhex⟩ := ih (s := digestFolded (digestRounds (digestLoad s))) hloaded rfl
        (by
          simp only [digestFolded_blk, digestFolded_len, digestRounds_blk, digestRounds_len, digestLoad_blk, hlen]
          omega)
        (digestLoad_frame _).len
      exact ⟨hblock.trans hturns, hhex⟩
    case isFalse herror => exact ⟨.one (digestTurn_load hbusy hphase), fun h => absurd h herror⟩

/-- Turns take a started digest command to the end of its run (R67, R95). -/
theorem turns_digestRun {s : State} (hbusy : s.de.status.busy = true) (hphase : s.de.phase = .load)
    (hblk : s.de.blk = 0) : Turns digestTurn s (digestRun s) := by
  obtain ⟨hturns, hhex⟩ :=
    turns_digestBlocks ((s.de.len.toNat + 8) / 64) hbusy hphase (by rw [hblk, blockCount]; omega)
  unfold digestRun
  dsimp only
  split
  case isTrue hleft => exact hturns.trans (.one (digestTurn_hex hleft (hhex hleft)))
  case isFalse => exact hturns

/-- A run ends with the command no longer in progress (R50, R51). -/
theorem digestRun_idle (s : State) : (digestRun s).de.status.busy = false := by
  unfold digestRun
  dsimp only
  split
  · obtain ⟨bus, h⟩ | ⟨bus, h⟩ := digestHex_cases (digestBlocks (blockCount s.de.len.toNat) s) <;> rw [h] <;> rfl
  · exact eq_false_of_ne_true ‹_›

/-- Settles O13: turn by turn through the block loop, and the machine takes a turn a step. -/
theorem digestTurnsReachTheWholeCommand : Obligations.DigestTurnsReachTheWholeCommand := by
  intro s v hex
  obtain ⟨n, hn⟩ := turns_digestRun (s := { s with de := digestStart v hex s.de }) rfl rfl rfl
  refine ⟨n, hn, digestRun_idle _, fun rest => ?_⟩
  rw [← hn]
  exact run_turns step_deTurn digestTurn_inputs rest n { s with de := digestStart v hex s.de }

/-! ### CU's turns -/

section
variable {s : State} (hbusy : s.cu.status.busy = true)
include hbusy

theorem cipherTurn_readKey (hop : s.cu.op = .new) (hphase : s.cu.phase = .readKey) : cipherTurn s = newReadKey s := by
  simp [cipherTurn, hbusy, hop, hphase]

theorem cipherTurn_schedule (hop : s.cu.op = .new) (hphase : s.cu.phase = .schedule) (hk : s.cu.k < 256) :
    cipherTurn s = newSchedule s := by simp [cipherTurn, hbusy, hop, hphase, hk]

theorem cipherTurn_newFinish (hop : s.cu.op = .new) (hphase : s.cu.phase = .schedule) (hk : s.cu.k = 256) :
    cipherTurn s = newFinish s := by simp [cipherTurn, hbusy, hop, hphase, hk]

theorem cipherTurn_byte (hop : s.cu.op = .xform) (hn : s.cu.n < s.cu.len.toNat) : cipherTurn s = xformByte s := by
  simp [cipherTurn, hbusy, hop, hn]

theorem cipherTurn_xformEnd (hop : s.cu.op = .xform) (hn : s.cu.n = s.cu.len.toNat) :
    cipherTurn s = cipherComplete s := by simp [cipherTurn, hbusy, hop, hn]

theorem cipherTurn_free (hop : s.cu.op = .free) : cipherTurn s = freeFinish s := by simp [cipherTurn, hbusy, hop]

end

/-- CU with its key schedule at iteration `k`, `q` the S-box so far and the accumulator (R104). -/
def atIteration (q : Sbox × Byte) (k : Nat) (s : State) : State :=
  let x := s.cu.context s.cu.ctx.toNat
  { s with cu := { s.cu.setContext s.cu.ctx.toNat { x with sbox := q.1 } with x := q.2, k := k } }

theorem atIteration_context (q : Sbox × Byte) (k : Nat) (s : State) :
    (atIteration q k s).cu.context s.cu.ctx.toNat = { s.cu.context s.cu.ctx.toNat with sbox := q.1 } :=
  context_setContext_same _ _ _

/-- Of two iterations the later one's S-box and accumulator last. -/
theorem atIteration_atIteration (q q' : Sbox × Byte) (k k' : Nat) (s : State) :
    atIteration q' k' (atIteration q k s) = atIteration q' k' s := by
  simp [atIteration, CipherUnit.setContext, CipherUnit.context]

theorem newSchedule_atIteration (q : Sbox × Byte) (k : Nat) (s : State) :
    newSchedule (atIteration q k s) = atIteration (ksaStep s.cu.key s.cu.len.toNat q k) (k + 1) s := by
  calc newSchedule (atIteration q k s)
      = atIteration (ksaStep s.cu.key s.cu.len.toNat (((atIteration q k s).cu.context s.cu.ctx.toNat).sbox, q.2) k)
          (k + 1) (atIteration q k s) := rfl
    _ = atIteration (ksaStep s.cu.key s.cu.len.toNat q k) (k + 1) s := by
        rw [atIteration_context, atIteration_atIteration]

/-- Keyed, CU stands before iteration 0 (R103). -/
theorem newKeyed_atIteration (kb : List Byte) (s : State) :
    newKeyed kb s = atIteration (identityBox, 0) 0 (newKeyed kb s) := by
  simp [newKeyed, atIteration, CipherUnit.setContext, CipherUnit.context]

theorem turns_schedule {s : State} (hbusy : s.cu.status.busy = true) (hop : s.cu.op = .new)
    (hphase : s.cu.phase = .schedule) {k : Nat} (hk : k ≤ 256) :
    Turns cipherTurn (atIteration (identityBox, 0) 0 s)
      (atIteration ((List.range k).foldl (ksaStep s.cu.key s.cu.len.toNat) (identityBox, 0)) k s) := by
  induction k with
  | zero => exact .refl
  | succ k ih =>
    refine (ih (Nat.le_of_succ_le hk)).trans (.one ?_)
    rw [cipherTurn_schedule (s := atIteration _ k s) hbusy hop hphase hk, newSchedule_atIteration, List.range_succ,
      List.foldl_append]
    rfl

/-- Turns take a keyed context through the whole schedule to the end of RC4.NEW (R104, R105). -/
theorem turns_newFinish {kb : List Byte} {s : State} (hbusy : s.cu.status.busy = true) (hop : s.cu.op = .new) :
    Turns cipherTurn (newKeyed kb s) (newFinish (newScheduleAll (newKeyed kb s))) := by
  have hschedule := turns_schedule (s := newKeyed kb s) hbusy hop rfl (le_refl 256)
  rw [← newKeyed_atIteration] at hschedule
  exact hschedule.trans (.one (cipherTurn_newFinish (s := newScheduleAll (newKeyed kb s)) hbusy hop rfl rfl))

theorem turns_newRun {s : State} (hbusy : s.cu.status.busy = true) (hop : s.cu.op = .new)
    (hphase : s.cu.phase = .readKey) : Turns cipherTurn s (newRun s) := by
  have hread : Turns cipherTurn s (newReadKey s) := .one (cipherTurn_readKey hbusy hop hphase)
  unfold newRun
  dsimp only
  split
  case isTrue hkeyed =>
    refine hread.trans ?_
    obtain ⟨kb, bus, -, h⟩ | ⟨bus, h⟩ := newReadKey_cases s <;> rw [h] at hkeyed ⊢
    · exact turns_newFinish hkeyed hop
    · simp at hkeyed
  case isFalse => exact hread

/-- Turns take the byte loop to its end, and leave a command still in progress past its last byte. -/
theorem turns_xformBytes (n : Nat) {s : State} (hbusy : s.cu.status.busy = true) (hop : s.cu.op = .xform)
    (hn : s.cu.n + n = s.cu.len.toNat) :
    Turns cipherTurn s (xformBytes n s) ∧
      ((xformBytes n s).cu.status.busy = true → (xformBytes n s).cu.n = s.cu.len.toNat) := by
  induction n generalizing s with
  | zero => exact ⟨.refl, fun _ => hn⟩
  | succ n ih =>
    have hbyte : Turns cipherTurn s (xformByte s) := .one (cipherTurn_byte hbusy hop (by omega))
    have hframe := xformByte_frame s hop (by omega)
    unfold xformBytes
    dsimp only
    split
    case isTrue hnext =>
      obtain ⟨hturns, hend⟩ := ih hnext (hframe.op.trans hop) (by rw [xformByte_n s hnext, hframe.len]; omega)
      exact ⟨hbyte.trans hturns, fun h => (hend h).trans (by rw [hframe.len])⟩
    case isFalse herror => exact ⟨hbyte, fun h => absurd h herror⟩

theorem turns_xformRun {s : State} (hbusy : s.cu.status.busy = true) (hop : s.cu.op = .xform) (hn : s.cu.n = 0) :
    Turns cipherTurn s (xformRun s) := by
  obtain ⟨hturns, hend⟩ := turns_xformBytes s.cu.len.toNat hbusy hop (by omega)
  have hframe := xformBytes_frame s.cu.len.toNat s hop (by omega)
  unfold xformRun
  dsimp only
  split
  case isTrue hleft =>
    exact hturns.trans (.one (cipherTurn_xformEnd hleft (hframe.op.trans hop) (by rw [hend hleft, hframe.len])))
  case isFalse => exact hturns

/-- Turns take a started cipher command to the end of its run (R67, R114, R115, R116). -/
theorem turns_cipherRun {s : State} (hbusy : s.cu.status.busy = true) (hphase : s.cu.phase = .readKey)
    (hn : s.cu.n = 0) : Turns cipherTurn s (cipherRun s) := by
  unfold cipherRun
  cases hop : s.cu.op with
  | new => exact turns_newRun hbusy hop hphase
  | xform => exact turns_xformRun hbusy hop hn
  | free => exact .one (cipherTurn_free hbusy hop)

/-- A run ends with the command no longer in progress (R50, R51). -/
theorem cipherRun_idle (s : State) : (cipherRun s).cu.status.busy = false := by
  unfold cipherRun
  split
  · unfold newRun
    dsimp only
    split
    · rfl
    · exact eq_false_of_ne_true ‹_›
  · unfold xformRun
    dsimp only
    split
    · rfl
    · exact eq_false_of_ne_true ‹_›
  · rfl

/-- Settles O24: turn by turn through the key schedule or the byte loop, and the machine takes a turn a step. -/
theorem cipherTurnsReachTheWholeCommand : Obligations.CipherTurnsReachTheWholeCommand := by
  intro s op c
  obtain ⟨n, hn⟩ := turns_cipherRun (s := { s with cu := cipherStart op c s.cu }) rfl rfl rfl
  refine ⟨n, hn, cipherRun_idle _, fun rest => ?_⟩
  rw [← hn]
  exact run_turns step_cuTurn cipherTurn_inputs rest n { s with cu := cipherStart op c s.cu }

end Sys2Proof.Machine
end

section
/-! The canonical form of host memory (R52, R15) as an invariant: a turn writes memory only through the operations that
keep the form, and a whole command keeps what turns keep. -/

namespace Sys2Proof.Machine

/-! ### DE's writes -/

theorem digestBusError_wf {s : State} (h : s.mem.wf) : (digestBusError s).mem.wf := by
  rw [digestBusError_mem]
  split
  · exact scramble_wf _ _ _ _ h
  · exact h

theorem digestLoad_wf {s : State} (h : s.mem.wf) : (digestLoad s).mem.wf := by
  obtain ⟨b, bus, -, e⟩ | ⟨bus, -, e⟩ := digestLoad_cases s <;> rw [e]
  · exact h
  · exact digestBusError_wf (s := setDeBus s bus) h

/-- The fold writes no memory. -/
theorem digestFold_mem (s : State) : (digestFold s).mem = s.mem := by
  unfold digestFold
  split_ifs <;> rfl

theorem digestHex_wf {s : State} (h : s.mem.wf) : (digestHex s).mem.wf := by
  obtain ⟨bus, e⟩ | ⟨bus, e⟩ := digestHex_cases s <;> rw [e]
  · exact writeRun_wf _ _ _ h
  · exact digestBusError_wf (s := setDeBus s bus) h

theorem digestTurn_wf (s : State) (h : s.mem.wf) : (digestTurn s).mem.wf := by
  unfold digestTurn
  split
  · split
    · exact digestLoad_wf h
    · split
      · exact h
      · exact (digestFold_mem s).symm ▸ h
    · exact digestHex_wf h
  · exact h

theorem digestCommand_wf {v hex : Bool} {s t : State} (hwf : s.mem.wf) (h : digestCommand v hex s = .next t) :
    t.mem.wf := by
  obtain ⟨-, h'⟩ | ⟨-, e, -, h'⟩ | ⟨-, -, h' | h' | ⟨-, h'⟩ | ⟨-, h'⟩⟩ := digestCommand_cases v hex s <;>
    cases h'.symm.trans h
  · exact hwf
  · exact hwf
  · exact (turns_digestRun (s := { s with de := digestStart v hex s.de }) rfl rfl rfl).keeps (P := fun s => s.mem.wf)
      digestTurn_wf hwf
  · exact hwf

/-! ### CU's writes -/

/-- A bus error writes no memory, or leaves any value in the output of RC4.XFORM (R132). -/
theorem cipherBusError_mem (s : State) : (cipherBusError s).mem = s.mem ∨
    (cipherBusError s).mem = s.mem.scramble .cu (s.cu.draws + Context.unspecifiedDraws) s.cu.dst s.cu.len.toNat := by
  unfold cipherBusError
  dsimp only
  split
  · exact .inr rfl
  · exact .inl rfl
  · exact .inl rfl

theorem cipherBusError_wf {s : State} (h : s.mem.wf) : (cipherBusError s).mem.wf := by
  obtain e | e := cipherBusError_mem s <;> rw [e]
  · exact h
  · exact scramble_wf _ _ _ _ h

theorem newReadKey_wf {s : State} (h : s.mem.wf) : (newReadKey s).mem.wf := by
  obtain ⟨kb, bus, -, e⟩ | ⟨bus, e⟩ := newReadKey_cases s <;> rw [e]
  · exact h
  · exact cipherBusError_wf (s := setCuBus s bus) h

theorem xformByte_wf {s : State} (h : s.mem.wf) : (xformByte s).mem.wf := by
  obtain ⟨-, -, e⟩ | ⟨bus, e⟩ := xformByte_cases s <;> rw [e]
  · exact write_wf _ h (byteAddr_lt _ _)
  · exact cipherBusError_wf (s := setCuBus s bus) h

theorem cipherTurn_wf (s : State) (h : s.mem.wf) : (cipherTurn s).mem.wf := by
  unfold cipherTurn
  split
  · split
    · split
      · exact newReadKey_wf h
      · split <;> exact h
    · split
      · exact xformByte_wf h
      · exact h
    · exact h
  · exact h

theorem cipherCommand_wf {op : CipherOp} {c : Nat} {s t : State} (hwf : s.mem.wf)
    (h : cipherCommand op c s = .next t) : t.mem.wf := by
  obtain ⟨-, h'⟩ | ⟨-, e, -, h'⟩ | ⟨-, -, ⟨-, h'⟩ | h' | h' | ⟨-, h'⟩ | ⟨-, h'⟩⟩ := cipherCommand_cases op c s <;>
    cases h'.symm.trans h
  · exact hwf
  · exact hwf
  · exact hwf
  · exact (turns_cipherRun (s := { s with cu := cipherStart op c s.cu }) rfl rfl rfl).keeps (P := fun s => s.mem.wf)
      cipherTurn_wf hwf
  · exact hwf

/-! ### The invariant -/

theorem resetMem_wf {s : State} (h : s.mem.wf) : (resetMem s).wf := by
  unfold resetMem
  dsimp only
  split_ifs
  · exact scramble_wf _ _ _ _ (scramble_wf _ _ _ _ h)
  · exact scramble_wf _ _ _ _ h
  · exact scramble_wf _ _ _ _ h
  · exact h

theorem Change.mem_wf {s t : State} (h : Change s t) (hwf : s.mem.wf) : t.mem.wf := by
  cases h with
  | answered | deRegs | cuRegs | deStatus | cuStatus | deIllegal | cuIllegal => exact hwf
  | memWrite a b => exact write_wf b hwf a.isLt
  | digest h => exact digestCommand_wf hwf h
  | cipher h => exact cipherCommand_wf hwf h
  | deTurn => exact digestTurn_wf s hwf
  | cuTurn => exact cipherTurn_wf s hwf
  | reset => exact resetMem_wf hwf

/-- Settles O42: every change a step can make keeps the canonical form. -/
theorem stepKeepsMemoryCanonical : Obligations.StepKeepsMemoryCanonical := by
  intro s t hwf h
  obtain ⟨l, hchange⟩ := step_change h
  exact hchange.mem_wf hwf

end Sys2Proof.Machine
end

section
/-! The ranges of the commands: the host contract (R68), the devices (R60), and the invariant of the buffers in
progress (R124). -/

namespace Sys2Proof.Machine

/-! ### Ranges that meet -/

/-- Two ranges meet where they share an address: the larger base is one. -/
theorem Range.meets_iff (r q : Range) :
    r.meets q = true ↔ ∃ a, (r.base ≤ a ∧ a < r.base + r.size) ∧ q.base ≤ a ∧ a < q.base + q.size := by
  simp only [Range.meets, Bool.and_eq_true, decide_eq_true_eq]
  constructor
  · intro h
    exact ⟨max r.base q.base, by omega⟩
  · rintro ⟨a, h⟩
    omega

/-- The model's test of ranges against ranges is an address that both lists cover. -/
theorem rangesMeet_iff (rs qs : List Range) : rangesMeet rs qs = true ↔ ∃ a, covered rs a ∧ covered qs a := by
  simp only [rangesMeet, List.any_eq_true, Range.meets_iff, covered]
  constructor
  · rintro ⟨r, hr, q, hq, a, har, haq⟩
    exact ⟨a, ⟨r, hr, har⟩, q, hq, haq⟩
  · rintro ⟨a, ⟨r, hr, har⟩, q, hq, haq⟩
    exact ⟨r, hr, q, hq, a, har, haq⟩

theorem covered_append {rs qs : List Range} {a : Nat} : covered (rs ++ qs) a ↔ covered rs a ∨ covered qs a := by
  simp only [covered, List.mem_append, or_and_right, exists_or]

theorem covered.mono {rs qs : List Range} {a : Nat} (h : covered rs a) (hsub : rs ⊆ qs) : covered qs a := by
  obtain ⟨r, hr, ha⟩ := h
  exact ⟨r, hsub hr, ha⟩

/-- The contract is broken at an address that one command writes and the other uses (R68). -/
theorem breaksContract_iff (rs ws rs' ws' : List Range) : breaksContract rs ws rs' ws' = true ↔
    ∃ a, covered ws a ∧ covered (rs' ++ ws') a ∨ covered rs a ∧ covered ws' a := by
  simp only [breaksContract, Bool.or_eq_true, rangesMeet_iff, exists_or]

/-- The contract is the same for either unit. -/
theorem breaksContract_symm (rs ws rs' ws' : List Range) :
    breaksContract rs' ws' rs ws = breaksContract rs ws rs' ws' := by
  rw [Bool.eq_iff_iff, breaksContract_iff, breaksContract_iff]
  refine exists_congr fun a => ?_
  rw [covered_append, covered_append]
  generalize covered rs a = r, covered ws a = w, covered rs' a = r', covered ws' a = w'
  tauto

/-- Fewer ranges keep a contract that more ranges keep. -/
theorem breaksContract_mono {rs ws rs' ws' qs vs qs' vs' : List Range} (h : breaksContract rs ws rs' ws' = false)
    (hrs : qs ⊆ rs) (hws : vs ⊆ ws) (hrs' : qs' ⊆ rs') (hws' : vs' ⊆ ws') :
    breaksContract qs vs qs' vs' = false := by
  rw [← Bool.not_eq_true, breaksContract_iff] at h ⊢
  rintro ⟨a, ⟨hv, hq⟩ | ⟨hq, hv⟩⟩
  · exact h ⟨a, .inl ⟨hv.mono hws, hq.mono (List.append_subset.mpr
      ⟨List.subset_append_of_subset_left _ hrs', List.subset_append_of_subset_right _ hws'⟩)⟩⟩
  · exact h ⟨a, .inr ⟨hq.mono hrs, hv.mono hws'⟩⟩

/-! ### Where an access or a command stops -/

theorem hostMemWrite_conflict {s : State} {a : Addr} (b : Byte) (hdev : ¬ covered s.devices a.toNat)
    (hbuf : covered (s.de.reads ++ s.de.writes ++ s.cu.reads ++ s.cu.writes) a.toNat) :
    hostMemWrite s a b = .fault .hostContract := by
  rw [← rangesHold_iff] at hdev hbuf
  rw [hostMemWrite, if_neg hdev, if_pos hbuf]

theorem hostMemRead_conflict {s : State} {a : Addr} (hdev : ¬ covered s.devices a.toNat)
    (hbuf : covered (s.de.writes ++ s.cu.writes) a.toNat) : hostMemRead s a = .fault .hostContract := by
  rw [← rangesHold_iff] at hdev hbuf
  rw [hostMemRead, if_neg hdev, if_pos hbuf]

section
variable {v hex : Bool} {s : State} (hidle : s.de.status.busy = false) (hcheck : digestCheck hex s.de.regs = none)
include hidle hcheck

theorem digestCommand_device
    (hdev : rangesMeet (digestReads s.de.regs.src s.de.regs.len ++ digestWrites hex s.de.regs.dst) s.devices = true) :
    digestCommand v hex s = .refused .deviceRange := by
  simp [digestCommand, hidle, hcheck, hdev]

theorem digestCommand_conflict
    (hdev : rangesMeet (digestReads s.de.regs.src s.de.regs.len ++ digestWrites hex s.de.regs.dst) s.devices = false)
    (hconflict : breaksContract (digestReads s.de.regs.src s.de.regs.len) (digestWrites hex s.de.regs.dst)
      s.cu.reads s.cu.writes = true) : digestCommand v hex s = .fault .hostContract := by
  simp [digestCommand, hidle, hcheck, hdev, hconflict]

/-- A digest command that starts keeps the contract with CU's command in progress. -/
theorem digestCommand_contract {t : State} (h : digestCommand v hex s = .next t) :
    breaksContract (digestReads s.de.regs.src s.de.regs.len) (digestWrites hex s.de.regs.dst)
      s.cu.reads s.cu.writes = false := by
  refine eq_false_of_ne_true fun hconflict => ?_
  cases hdev : rangesMeet (digestReads s.de.regs.src s.de.regs.len ++ digestWrites hex s.de.regs.dst) s.devices
  · cases (digestCommand_conflict hidle hcheck hdev hconflict).symm.trans h
  · cases (digestCommand_device hidle hcheck hdev).symm.trans h

end

section
variable {op : CipherOp} {c : Nat} {s : State} (hidle : s.cu.status.busy = false)
  (hcheck : cipherCheck op c (nCtx s.params) s.cu = none) (hsome : emptyXform op s.cu.regs = false)
include hidle hcheck hsome

theorem cipherCommand_device
    (hdev : rangesMeet (cipherReads op s.cu.regs.src s.cu.regs.len ++ cipherWrites op s.cu.regs.dst s.cu.regs.len)
      s.devices = true) : cipherCommand op c s = .refused .deviceRange := by
  simp [cipherCommand, hidle, hcheck, hsome, hdev]

theorem cipherCommand_conflict
    (hdev : rangesMeet (cipherReads op s.cu.regs.src s.cu.regs.len ++ cipherWrites op s.cu.regs.dst s.cu.regs.len)
      s.devices = false)
    (hconflict : breaksContract (cipherReads op s.cu.regs.src s.cu.regs.len)
      (cipherWrites op s.cu.regs.dst s.cu.regs.len) s.de.reads s.de.writes = true) :
    cipherCommand op c s = .fault .hostContract := by
  simp [cipherCommand, hidle, hcheck, hsome, hdev, hconflict]

end

/-- A command that has a byte to transform is no empty transform (R112). -/
theorem emptyXform_of_pos {op : CipherOp} {r : ParamRegs} (h : 0 < r.len.toNat) : emptyXform op r = false := by
  simp [emptyXform, h.ne']

/-- An empty transform uses no address. -/
theorem emptyXform_covers {op : CipherOp} {r : ParamRegs} {a : Nat} (h : emptyXform op r = true) :
    ¬ covered (cipherReads op r.src r.len ++ cipherWrites op r.dst r.len) a := by
  obtain ⟨rfl, hlen⟩ : op = .xform ∧ r.len.toNat = 0 := by simpa [emptyXform] using h
  simp [covered, cipherReads, cipherWrites, hlen]

/-- A cipher command that answers a next state keeps the contract with DE's command in progress: an empty transform
because it uses no address. -/
theorem cipherCommand_contract {op : CipherOp} {c : Nat} {s t : State} (hidle : s.cu.status.busy = false)
    (hcheck : cipherCheck op c (nCtx s.params) s.cu = none) (h : cipherCommand op c s = .next t) :
    breaksContract (cipherReads op s.cu.regs.src s.cu.regs.len) (cipherWrites op s.cu.regs.dst s.cu.regs.len)
      s.de.reads s.de.writes = false := by
  refine eq_false_of_ne_true fun hconflict => ?_
  cases hsome : emptyXform op s.cu.regs
  case true =>
    obtain ⟨a, ⟨hused, -⟩ | ⟨hused, -⟩⟩ := (breaksContract_iff _ _ _ _).mp hconflict
    · exact emptyXform_covers hsome (covered_append.mpr (.inr hused))
    · exact emptyXform_covers hsome (covered_append.mpr (.inl hused))
  case false =>
    cases hdev : rangesMeet (cipherReads op s.cu.regs.src s.cu.regs.len ++
      cipherWrites op s.cu.regs.dst s.cu.regs.len) s.devices
    · cases (cipherCommand_conflict hidle hcheck hsome hdev hconflict).symm.trans h
    · cases (cipherCommand_device hidle hcheck hsome hdev).symm.trans h

/-- Settles O36: an address that breaks the contract makes the model's tests of the ranges true. -/
theorem hostContractViolationsFault : Obligations.HostContractViolationsFault := by
  refine ⟨fun s a b rest hdev hbuf => ?_, fun s a rest hdev hbuf => ?_, fun s f hf hidle hcheck hdev hshared => ?_,
    fun s c f hf hidle hcheck hpos hdev hshared => ?_⟩
  · exact hostMemWrite_conflict (s := { s with inputs := rest }) b hdev hbuf
  · exact hostMemRead_conflict (s := { s with inputs := rest }) hdev hbuf
  · rw [exec_digestForms hf]
    exact digestCommand_conflict hidle hcheck hdev ((breaksContract_iff _ _ _ _).mpr hshared)
  · rw [exec_cipherForms hf]
    exact cipherCommand_conflict hidle hcheck (emptyXform_of_pos hpos) hdev ((breaksContract_iff _ _ _ _).mpr hshared)

/-- Settles O37: the refusal is judged once the checks pass and before the contract. -/
theorem deviceRangesAreRefused : Obligations.DeviceRangesAreRefused := by
  refine ⟨fun s f hf hidle hcheck hshared => ?_, fun s c f hf hidle hcheck hshared => ?_⟩
  · rw [exec_digestForms hf]
    exact digestCommand_device hidle hcheck ((rangesMeet_iff _ _).mpr hshared)
  · rw [exec_cipherForms hf]
    have hsome : emptyXform f.2 s.cu.regs = false := by
      obtain ⟨a, hused, -⟩ := hshared
      exact eq_false_of_ne_true fun hempty => emptyXform_covers hempty hused
    exact cipherCommand_device hidle hcheck hsome ((rangesMeet_iff _ _).mpr hshared)

/-! ### Buffers that passed their checks lie in memory -/

/-- A range that does not run past the top of memory lies in it (R124). -/
theorem inMemory_of_pastTop {base : Addr} {n : Nat} (h : 0 < n → ¬ pastTop base n = true) :
    Range.inMemory { base := base.toNat, size := n } := by
  intro hpos
  have := h hpos
  simp only [pastTop, decide_eq_true_eq] at this
  dsimp only at hpos ⊢
  omega

theorem digestCheck_inMemory {hex : Bool} {r : ParamRegs} (h : digestCheck hex r = none) :
    ∀ q ∈ digestReads r.src r.len ++ digestWrites hex r.dst, q.inMemory := by
  simp only [digestCheck] at h
  split_ifs at h with hlen hsrc hdst
  simp only [digestReads, digestWrites, List.mem_append, List.mem_singleton]
  rintro q (rfl | hq)
  · exact inMemory_of_pastTop fun hpos hpast => hsrc ⟨hpos, hpast⟩
  · cases hex
    · simp at hq
    · obtain rfl : q = _ := by simpa using hq
      exact inMemory_of_pastTop fun _ hpast => hdst ⟨rfl, hpast⟩

theorem newCheck_inMemory {r : ParamRegs} {x : Context} (h : newCheck r x = none) :
    Range.inMemory { base := r.src.toNat, size := keyUsed r.len } := by
  simp only [newCheck] at h
  split_ifs at h with hvalid hlen hpast
  exact inMemory_of_pastTop fun _ => hpast

theorem xformCheck_inMemory {r : ParamRegs} {x : Context} (h : xformCheck r x = none) :
    Range.inMemory { base := r.src.toNat, size := r.len.toNat } ∧
      Range.inMemory { base := r.dst.toNat, size := r.len.toNat } := by
  by_cases hlen : r.len.toNat = 0
  · exact ⟨fun hpos => absurd hlen hpos.ne', fun hpos => absurd hlen hpos.ne'⟩
  · simp only [xformCheck, if_neg hlen] at h
    split_ifs at h with hvalid hpast hover
    exact ⟨inMemory_of_pastTop fun _ hp => hpast (.inl hp), inMemory_of_pastTop fun _ hp => hpast (.inr hp)⟩

theorem cipherCheck_inMemory {op : CipherOp} {c n : Nat} {u : CipherUnit} (h : cipherCheck op c n u = none) :
    ∀ q ∈ cipherReads op u.regs.src u.regs.len ++ cipherWrites op u.regs.dst u.regs.len, q.inMemory := by
  have hexist := Nat.not_le.mpr (cipherCheck_exists h)
  rw [cipherCheck.eq_def, if_neg hexist] at h
  cases op with
  | new => simpa [cipherReads, cipherWrites] using newCheck_inMemory h
  | xform => simpa [cipherReads, cipherWrites] using xformCheck_inMemory h
  | free => simp [cipherReads, cipherWrites]

/-! ### The buffers of the commands in progress -/

theorem buffersOk_iff (s : State) : BuffersOk s ↔ (∀ r ∈ s.de.reads ++ s.de.writes, r.inMemory) ∧
    (∀ r ∈ s.cu.reads ++ s.cu.writes, r.inMemory) ∧
    breaksContract s.de.reads s.de.writes s.cu.reads s.cu.writes = false := by
  have hsplit := List.forall_mem_append (p := Range.inMemory) (l₁ := s.de.reads ++ s.de.writes)
    (l₂ := s.cu.reads ++ s.cu.writes)
  rw [← List.append_assoc] at hsplit
  exact ⟨fun ⟨hmem, hcontract⟩ => ⟨(hsplit.mp hmem).1, (hsplit.mp hmem).2, hcontract⟩,
    fun ⟨hde, hcu, hcontract⟩ => ⟨hsplit.mpr ⟨hde, hcu⟩, hcontract⟩⟩

/-- DE is idle, or in progress with the command it was in progress with. -/
def DigestEngine.Continues (d d' : DigestEngine) : Prop :=
  d'.status.busy = true → d.status.busy = true ∧ d'.src = d.src ∧ d'.len = d.len ∧ d'.dst = d.dst ∧ d'.hex = d.hex

/-- CU is idle, or in progress with the command it was in progress with. -/
def CipherUnit.Continues (u u' : CipherUnit) : Prop :=
  u'.status.busy = true → u.status.busy = true ∧ u'.op = u.op ∧ u'.src = u.src ∧ u'.len = u.len ∧ u'.dst = u.dst

theorem DigestEngine.Continues.of_idle {d d' : DigestEngine} (h : d'.status.busy = false) : d.Continues d' :=
  fun hb => absurd (h.symm.trans hb) (by decide)

theorem CipherUnit.Continues.of_idle {u u' : CipherUnit} (h : u'.status.busy = false) : u.Continues u' :=
  fun hb => absurd (h.symm.trans hb) (by decide)

theorem DigestEngine.Continues.of_eq {d d' : DigestEngine} (h : d' = d) : d.Continues d' := by
  rw [h]
  exact fun hb => ⟨hb, rfl, rfl, rfl, rfl⟩

theorem CipherUnit.Continues.of_eq {u u' : CipherUnit} (h : u' = u) : u.Continues u' := by
  rw [h]
  exact fun hb => ⟨hb, rfl, rfl, rfl, rfl⟩

theorem DigestEngine.Continues.subset {d d' : DigestEngine} (h : d.Continues d') :
    d'.reads ⊆ d.reads ∧ d'.writes ⊆ d.writes := by
  cases hb : d'.status.busy
  · simp [DigestEngine.reads, DigestEngine.writes, hb]
  · obtain ⟨hb', hsrc, hlen, hdst, hhex⟩ := h hb
    simp [DigestEngine.reads, DigestEngine.writes, hb, hb', hsrc, hlen, hdst, hhex]

theorem CipherUnit.Continues.subset {u u' : CipherUnit} (h : u.Continues u') :
    u'.reads ⊆ u.reads ∧ u'.writes ⊆ u.writes := by
  cases hb : u'.status.busy
  · simp [CipherUnit.reads, CipherUnit.writes, hb]
  · obtain ⟨hb', hop, hsrc, hlen, hdst⟩ := h hb
    simp [CipherUnit.reads, CipherUnit.writes, hb, hb', hop, hsrc, hlen, hdst]

/-- No unit starts a command: the buffers in progress are among those that were. -/
theorem BuffersOk.of_continues {s t : State} (h : BuffersOk s) (hde : s.de.Continues t.de)
    (hcu : s.cu.Continues t.cu) : BuffersOk t := by
  obtain ⟨hdr, hdw⟩ := hde.subset
  obtain ⟨hcr, hcw⟩ := hcu.subset
  obtain ⟨hmemDe, hmemCu, hcontract⟩ := (buffersOk_iff s).mp h
  refine (buffersOk_iff t).mpr ⟨fun r hr => hmemDe r ?_, fun r hr => hmemCu r ?_,
    breaksContract_mono hcontract hdr hdw hcr hcw⟩
  · exact List.mem_append.mpr ((List.mem_append.mp hr).imp (@hdr r) (@hdw r))
  · exact List.mem_append.mpr ((List.mem_append.mp hr).imp (@hcr r) (@hcw r))

/-- A unit's own steps start no command. -/
theorem Status.Progress.busy {st st' : Status} (h : st.Progress st') (hb : st'.busy = true) : st.busy = true := by
  obtain rfl | ⟨hbusy, -⟩ := h
  · exact hb
  · exact hbusy

theorem digestTurn_continues (s : State) : s.de.Continues (digestTurn s).de := by
  obtain hf | ⟨-, -, bus, h⟩ := digestTurn_cases s
  · exact fun hb => ⟨(digestTurn_progress s).busy hb, hf.src, hf.len, hf.dst, hf.hex⟩
  · rw [h]
    exact .of_idle rfl

theorem cipherTurn_continues (s : State) : s.cu.Continues (cipherTurn s).cu := by
  have hf := cipherTurn_frame s
  exact fun hb => ⟨(cipherTurn_progress s).busy hb, hf.op, hf.src, hf.len, hf.dst⟩

/-- An illegal word starts no command. -/
theorem illegal_busy (st : Status) :
    (if st.busy then st.drop else st.accept.raise .illegalCmd).busy = st.busy := by
  cases h : st.busy <;> simp [h]

/-! ### A command that starts -/

theorem digestCommand_buffersOk {v hex : Bool} {s t : State} (hok : BuffersOk s)
    (h : digestCommand v hex s = .next t) : BuffersOk t := by
  obtain ⟨-, h'⟩ | ⟨-, e, -, h'⟩ | ⟨hidle, hcheck, h' | h' | ⟨-, h'⟩ | ⟨-, h'⟩⟩ := digestCommand_cases v hex s <;>
    cases h'.symm.trans h
  · exact hok.of_continues (fun hb => ⟨hb, rfl, rfl, rfl, rfl⟩) (.of_eq rfl)
  · exact hok.of_continues (.of_idle rfl) (.of_eq rfl)
  · exact hok.of_continues (.of_idle (digestRun_idle _)) (.of_eq (digestCommand_leaves h).1)
  · obtain ⟨-, hcu, -⟩ := (buffersOk_iff s).mp hok
    exact (buffersOk_iff _).mpr ⟨digestCheck_inMemory hcheck, hcu, digestCommand_contract hidle hcheck h⟩

theorem cipherCommand_buffersOk {op : CipherOp} {c : Nat} {s t : State} (hok : BuffersOk s)
    (h : cipherCommand op c s = .next t) : BuffersOk t := by
  obtain ⟨-, h'⟩ | ⟨-, e, -, h'⟩ | ⟨hidle, hcheck, ⟨-, h'⟩ | h' | h' | ⟨-, h'⟩ | ⟨-, h'⟩⟩ :=
    cipherCommand_cases op c s <;>
    cases h'.symm.trans h
  · exact hok.of_continues (.of_eq rfl) (fun hb => ⟨hb, rfl, rfl, rfl, rfl⟩)
  · exact hok.of_continues (.of_eq rfl) (.of_idle rfl)
  · exact hok.of_continues (.of_eq rfl) (.of_idle rfl)
  · exact hok.of_continues (.of_eq (cipherCommand_de h)) (.of_idle (cipherRun_idle _))
  · obtain ⟨hde, -, -⟩ := (buffersOk_iff s).mp hok
    exact (buffersOk_iff _).mpr ⟨hde, cipherCheck_inMemory hcheck,
      (breaksContract_symm _ _ _ _).trans (cipherCommand_contract hidle hcheck h)⟩

theorem Change.buffersOk {s t : State} (h : Change s t) (hok : BuffersOk s) : BuffersOk t := by
  cases h with
  | answered | memWrite => exact hok.of_continues (.of_eq rfl) (.of_eq rfl)
  | deRegs => exact hok.of_continues (fun hb => ⟨hb, rfl, rfl, rfl, rfl⟩) (.of_eq rfl)
  | cuRegs => exact hok.of_continues (.of_eq rfl) fun hb => ⟨hb, rfl, rfl, rfl, rfl⟩
  | deStatus v =>
    exact hok.of_continues (fun hb => ⟨by simpa [Status.hostWrite_eq] using hb, rfl, rfl, rfl, rfl⟩) (.of_eq rfl)
  | cuStatus v =>
    exact hok.of_continues (.of_eq rfl) fun hb => ⟨by simpa [Status.hostWrite_eq] using hb, rfl, rfl, rfl, rfl⟩
  | deIllegal => exact hok.of_continues (fun hb => ⟨(illegal_busy _).symm.trans hb, rfl, rfl, rfl, rfl⟩) (.of_eq rfl)
  | cuIllegal => exact hok.of_continues (.of_eq rfl) fun hb => ⟨(illegal_busy _).symm.trans hb, rfl, rfl, rfl, rfl⟩
  | digest h => exact digestCommand_buffersOk hok h
  | cipher h => exact cipherCommand_buffersOk hok h
  | deTurn => exact hok.of_continues (digestTurn_continues s) (.of_eq (digestTurn_leaves s).1)
  | cuTurn => exact hok.of_continues (.of_eq (cipherTurn_frame s).de) (cipherTurn_continues s)
  | reset => exact hok.of_continues (.of_idle rfl) (.of_idle rfl)

/-- Settles O44: every change a step can make keeps the buffers in progress sound. -/
theorem stepKeepsBuffersSound : Obligations.StepKeepsBuffersSound := by
  intro s t hok h
  obtain ⟨l, hchange⟩ := step_change h
  exact hchange.buffersOk ⟨hok.inMemory, hok.contract⟩

end Sys2Proof.Machine
end

section
/-! Bus errors (R63): a command one of whose accesses draws one ends with BUS (R125, R131, R132). -/

namespace Sys2Proof.Machine

/-! ### Accesses and their draws -/

theorem quiet_zero (bus : List Bool) : quiet bus 0 := fun k hk => absurd hk (Nat.not_lt_zero k)

/-- No bus error on the next `m + n` accesses: none on the first `m`, none on the `n` after. -/
theorem quiet_add {bus : List Bool} {m n : Nat} : quiet bus (m + n) ↔ quiet bus m ∧ quiet (bus.drop m) n := by
  induction m generalizing bus with
  | zero =>
    rw [Nat.zero_add, List.drop_zero]
    exact ⟨fun h => ⟨quiet_zero bus, h⟩, And.right⟩
  | succ m ih => rw [Nat.add_right_comm, quiet_succ, quiet_succ, ih, List.drop_tail, and_assoc]

/-- A block that is fetched met no bus error on its message bytes, one draw each. -/
theorem fetchBlock_some {m : Memory} {bus bus' : List Bool} {src : Addr} {len p n : Nat} {b : List Byte}
    (h : fetchBlock m bus src len p n = (some b, bus')) :
    quiet bus (min n (len - p)) ∧ bus' = bus.drop (min n (len - p)) := by
  induction n generalizing bus p b with
  | zero =>
    simp only [fetchBlock, Prod.mk.injEq] at h
    exact ⟨by simpa using quiet_zero bus, by simp [h.2]⟩
  | succ n ih =>
    by_cases hp : p < len
    case pos =>
      have hmin : min (n + 1) (len - p) = min n (len - (p + 1)) + 1 := by omega
      rw [fetchBlock, if_pos hp] at h
      split at h
      · simp at h
      · obtain ⟨hmap, rfl⟩ := Prod.mk.inj h
        obtain ⟨b', hb', -⟩ := Option.map_eq_some_iff.mp hmap
        obtain ⟨hquiet, hdrop⟩ := ih (Prod.ext hb' rfl)
        rw [hmin, quiet_succ, hdrop, List.drop_tail]
        exact ⟨⟨eq_false_of_ne_true ‹_›, hquiet⟩, rfl⟩
    case neg =>
      have hmin : min (n + 1) (len - p) = min n (len - (p + 1)) := by omega
      rw [fetchBlock, if_neg hp] at h
      obtain ⟨hmap, rfl⟩ := Prod.mk.inj h
      obtain ⟨b', hb', -⟩ := Option.map_eq_some_iff.mp hmap
      rw [hmin]
      exact ih (Prod.ext hb' rfl)

/-- With a bus error among its draws a run of writes does not end. -/
theorem memStore_error (m : Memory) {bus : List Bool} (base : Addr) (k : Nat) {bs : List Byte}
    (h : ¬ quiet bus bs.length) : (memStore m bus base k bs).1 = none := by
  induction bs generalizing m bus k with
  | nil => exact absurd (quiet_zero bus) h
  | cons b bs ih =>
    by_cases h0 : busError bus = true
    · simp [memStore, h0]
    · have h1 : ¬ quiet bus.tail bs.length := fun h1 => h (quiet_succ.mpr ⟨by simpa using h0, h1⟩)
      simp [memStore, h0, ih _ (k + 1) h1]

/-! ### Digest commands -/

/-- How many accesses the digest command in progress has left. -/
def DigestEngine.accessesLeft (d : DigestEngine) : Nat := d.len.toNat - d.p + if d.hex then hexBytes else 0

/-- The message bytes consumed are those of the blocks read; before the hex string they are all of them (R24, R95). -/
def DigestEngine.placed (d : DigestEngine) : Prop :=
  match d.phase with
  | .load => d.p = 64 * d.blk
  | .rounds => d.p = 64 * (d.blk + 1)
  | .hex => d.hex = true ∧ d.len.toNat ≤ d.p

/-- A digest command that was in progress with `st` has ended with BUS, or is in progress and a bus error lies
ahead. -/
def BusErrorAhead (st : Status) (s : State) : Prop :=
  s.de.status = st.raise .bus ∨
    s.de.status = st ∧ s.de.placed ∧ ¬ quiet s.de.bus s.de.accessesLeft

/-- After the last block every message byte is consumed (R82). -/
theorem consumed_of_last {len p blk : Nat} (hp : p = 64 * (blk + 1)) (hlast : ¬ blk + 1 < blockCount len) :
    len ≤ p := by
  simp only [blockCount] at hlast
  omega

section
variable {st : Status} {s : State} (hstatus : s.de.status = st) (hplaced : s.de.placed)
  (hahead : ¬ quiet s.de.bus s.de.accessesLeft)
include hstatus hplaced hahead

theorem digestLoad_busErrorAhead (hphase : s.de.phase = .load) : BusErrorAhead st (digestLoad s) := by
  obtain ⟨b, bus, hfetch, e⟩ | ⟨bus, -, e⟩ := digestLoad_cases s <;> rw [e]
  · obtain ⟨hquiet, hbus⟩ := fetchBlock_some hfetch
    have hp : s.de.p = 64 * s.de.blk := by simpa [DigestEngine.placed, hphase] using hplaced
    refine .inr ⟨hstatus, by simp [DigestEngine.placed, hp]; omega, fun hrest => hahead ?_⟩
    have hleft : s.de.accessesLeft = min 64 (s.de.len.toNat - s.de.p) +
        (digestLoaded b (setDeBus s bus)).de.accessesLeft := by
      simp only [DigestEngine.accessesLeft, digestLoaded_len, digestLoaded_p, digestLoaded_hex, setDeBus_len,
        setDeBus_p, setDeBus_hex]
      rw [← Nat.add_assoc]
      congr 1
      omega
    rw [hleft, quiet_add, ← hbus]
    exact ⟨hquiet, hrest⟩
  · exact .inl (by rw [← hstatus]; rfl)

theorem digestFold_busErrorAhead (hphase : s.de.phase = .rounds) : BusErrorAhead st (digestFold s) := by
  have hp : s.de.p = 64 * (s.de.blk + 1) := by simpa [DigestEngine.placed, hphase] using hplaced
  unfold digestFold
  split
  case isTrue => exact .inr ⟨hstatus, hp, hahead⟩
  case isFalse hlast =>
    have hconsumed := consumed_of_last hp hlast
    split
    case isTrue hhex => exact .inr ⟨hstatus, ⟨hhex, hconsumed⟩, hahead⟩
    case isFalse hhex =>
      have hnone : s.de.accessesLeft = 0 := by simp [DigestEngine.accessesLeft, hhex, hconsumed]
      exact absurd (hnone ▸ quiet_zero s.de.bus) hahead

theorem digestHex_busErrorAhead (hphase : s.de.phase = .hex) : BusErrorAhead st (digestHex s) := by
  obtain ⟨hhex, hconsumed⟩ : s.de.hex = true ∧ s.de.len.toNat ≤ s.de.p := by
    simpa [DigestEngine.placed, hphase] using hplaced
  have hleft : s.de.accessesLeft = (hexString s.de.h).length := by
    simp [DigestEngine.accessesLeft, hhex, hconsumed]
  have hstore := memStore_error s.mem s.de.dst 0 (hleft ▸ hahead)
  unfold digestHex
  rcases h : memStore s.mem s.de.bus s.de.dst 0 (hexString s.de.h) with ⟨_ | m, bus⟩
  · exact .inl (by rw [← hstatus]; rfl)
  · simp [h] at hstore

end

theorem digestTurn_busErrorAhead {st : Status} (hbusy : st.busy = true) (s : State) (h : BusErrorAhead st s) :
    BusErrorAhead st (digestTurn s) := by
  obtain hended | ⟨hstatus, hplaced, hahead⟩ := h
  · left
    simp [digestTurn, hended]
  · unfold digestTurn
    rw [if_pos (hstatus ▸ hbusy)]
    split
    · exact digestLoad_busErrorAhead hstatus hplaced hahead ‹_›
    · split
      · exact .inr ⟨hstatus, hplaced, hahead⟩
      · exact digestFold_busErrorAhead hstatus hplaced hahead ‹_›
    · exact digestHex_busErrorAhead hstatus hplaced hahead ‹_›

/-- A digest command that runs into a bus error ends with BUS. -/
theorem digestRun_busError {s : State} (hbusy : s.de.status.busy = true) (hphase : s.de.phase = .load)
    (hblk : s.de.blk = 0) (hp : s.de.p = 0) (hahead : ¬ quiet s.de.bus s.de.accessesLeft) :
    (digestRun s).de.status = s.de.status.raise .bus := by
  have hplaced : s.de.placed := by simp [DigestEngine.placed, hphase, hblk, hp]
  have hend := (turns_digestRun hbusy hphase hblk).keeps (digestTurn_busErrorAhead hbusy)
    (.inr ⟨rfl, hplaced, hahead⟩)
  obtain hended | ⟨hstatus, -⟩ := hend
  · exact hended
  · exact absurd (hstatus ▸ digestRun_idle s) (by simp [hbusy])

/-- Settles O10: the run ends with BUS, and its frame says what memory may change. -/
theorem digestBusErrorEndsTheCommand : Obligations.DigestBusErrorEndsTheCommand := by
  intro s f hf hacc hpace hbus
  have hframe := digestRun_frame { s with de := digestStart f.2.1 f.2.2 s.de } rfl
  refine ⟨_, by rw [exec_digestForms hf, hacc.command, hpace], ?_, hframe.noHex, hframe.mem⟩
  exact digestRun_busError (s := { s with de := digestStart f.2.1 f.2.2 s.de }) rfl rfl rfl rfl hbus

/-! ### Cipher commands -/

/-- RC4.NEW that runs into a bus error ends in it, on the state it started from but for the draws. -/
theorem newRun_busError {s : State} (hahead : ¬ quiet s.cu.bus (keyUsed s.cu.len)) :
    ∃ bus, newRun s = cipherBusError (setCuBus s bus) := by
  obtain ⟨kb, bus, hfetch, -⟩ | ⟨bus, h⟩ := newReadKey_cases s
  · have herror := memFetch_error s.mem s.cu.src 0 hahead
    simp [hfetch] at herror
  · exact ⟨bus, by simp [newRun, h]⟩

/-- The byte loop that runs into a bus error ends in it, on a state of the same command. -/
theorem xformBytes_busError (n : Nat) {s : State} (hbusy : s.cu.status.busy = true)
    (hahead : ¬ quiet s.cu.bus (2 * n)) :
    ∃ u, xformBytes n s = cipherBusError u ∧ u.cu.status = s.cu.status ∧ u.cu.ctx = s.cu.ctx := by
  induction n generalizing s with
  | zero => exact absurd (quiet_zero s.cu.bus) hahead
  | succ n ih =>
    obtain ⟨hread, hwrite, h⟩ | ⟨bus, h⟩ := xformByte_cases s
    · have hrest : ¬ quiet s.cu.bus.tail.tail (2 * n) := fun hquiet =>
        hahead (quiet_succ.mpr ⟨hread, quiet_succ.mpr ⟨hwrite, hquiet⟩⟩)
      obtain ⟨u, hu, hstatus, hctx⟩ := ih (s := xformWrite (setCuBus s s.cu.bus.tail.tail)) hbusy hrest
      exact ⟨u, by simp [xformBytes, h, hbusy, hu], hstatus, hctx⟩
    · exact ⟨setCuBus s bus, by simp [xformBytes, h], rfl, rfl⟩

theorem xformRun_busError {s : State} (hbusy : s.cu.status.busy = true)
    (hahead : ¬ quiet s.cu.bus (2 * s.cu.len.toNat)) :
    ∃ u, xformRun s = cipherBusError u ∧ u.cu.status = s.cu.status ∧ u.cu.ctx = s.cu.ctx := by
  obtain ⟨u, hu, hsame⟩ := xformBytes_busError s.cu.len.toNat hbusy hahead
  exact ⟨u, by simp [xformRun, hu], hsame⟩

/-- A cipher command whose run ends in a bus error of the command started leaves BUS in CU_STATUS and its context
invalid (R125, R132). -/
theorem CipherAccepted.busError {op : CipherOp} {c : Nat} {s u : State} (h : CipherAccepted op c s)
    (hcheck : cipherCheck op c (nCtx s.params) s.cu = none) (hsome : emptyXform op s.cu.regs = false)
    (hpace : s.cu.pace = .whole) (hrun : cipherRun { s with cu := cipherStart op c s.cu } = cipherBusError u)
    (hstatus : u.cu.status = s.cu.status.accept.start) (hctx : u.cu.ctx = BitVec.ofNat 8 c) :
    ∃ t, cipherCommand op c s = .next t ∧ t.cu.status = s.cu.status.failed .bus ∧ (t.cu.context c).valid = false ∧
      CipherFrame { s with cu := cipherStart op c s.cu } t := by
  have hnamed := cipherBusError_context u
  rw [hctx, latched_ctx h.exist] at hnamed
  refine ⟨cipherBusError u, ?_, ?_, ?_, ?_⟩
  · rw [h.command hcheck hsome, hpace, ← hrun]
  · rw [cipherBusError_status, hstatus]
    rfl
  · rw [hnamed]
    rfl
  · rw [← hrun]
    exact cipherRun_frame _ rfl

/-- Settles O21: the run ends in a bus error of the command started, and its frame says what memory may change. -/
theorem cipherBusErrorInvalidatesTheContext : Obligations.CipherBusErrorInvalidatesTheContext := by
  intro s c hpace
  refine ⟨fun hacc hbus => ?_, fun hacc hbus => ?_⟩
  · obtain ⟨bus, hrun⟩ := newRun_busError (s := { s with cu := cipherStart .new c s.cu }) hbus
    obtain ⟨t, ht, hstatus, hvalid, hframe⟩ := hacc.busError hacc.check rfl hpace hrun rfl rfl
    exact ⟨t, ht, hstatus, hvalid, hframe.noXform nofun⟩
  · obtain ⟨u, hrun, hstatus, hctx⟩ := xformRun_busError (s := { s with cu := cipherStart .xform c s.cu }) rfl hbus
    obtain ⟨t, ht, hstatus, hvalid, hframe⟩ :=
      hacc.busError hacc.check (emptyXform_of_pos hacc.some) hpace hrun hstatus hctx
    exact ⟨t, ht, hstatus, hvalid, hframe.mem⟩

end Sys2Proof.Machine
end

section
/-! Register accesses: the faults of a bad access (R56), and that a read changes nothing of the block (R57). -/

namespace Sys2Proof.Machine

theorem goodAccess_iff (off : BitVec 9) (bits : Nat) : goodAccess off bits = true ↔ bits = 32 ∧ aligned off := by
  simp [goodAccess]

/-- Settles O31: such an access is no good one. -/
theorem badRegisterAccessFaults : Obligations.BadRegisterAccessFaults := by
  intro s o bits v rest hbad
  have hgood : ¬ goodAccess o bits = true := by
    rw [goodAccess_iff, Classical.not_and_iff_not_or_not]
    exact hbad
  exact ⟨if_neg hgood, if_neg hgood⟩

/-- An aligned 32-bit read is answered (R56, R57). -/
theorem step_regRead {o : BitVec 9} (hal : aligned o) (s : State) (rest : List Event) :
    step { s with inputs := .regRead o 32 :: rest } = .next (hostRead { s with inputs := rest } o) :=
  if_pos ((goodAccess_iff o 32).mpr ⟨rfl, hal⟩)

/-- Settles O32: the read is answered from the register, and CMD registers read 0 (R33, R39). -/
theorem registerReadReturnsTheRegister : Obligations.RegisterReadReturnsTheRegister := by
  intro s o rest hal
  refine ⟨_, step_regRead hal s rest, rfl, rfl, rfl, rfl, rfl, rfl, ?_⟩
  rintro (rfl | rfl) <;> rfl

end Sys2Proof.Machine
end

section
/-! The command words: what the fields of a word are, that a word decodes to a command exactly when it is the word of
that command, and what a word does at the CMD register (R71 to R77). -/

namespace Sys2Proof.Machine

/-! ### The fields of a command word -/

/-- A word is its four fields put together. -/
theorem append_fields (a b c d : Nat) (x : BitVec (a + b + c + d)) :
    x.extractLsb' (d + c + b) a ++ x.extractLsb' (d + c) b ++ x.extractLsb' d c ++ x.extractLsb' 0 d = x := by
  rw [BitVec.extractLsb'_append_extractLsb'_eq_extractLsb' rfl,
    BitVec.extractLsb'_append_extractLsb'_eq_extractLsb' rfl,
    BitVec.extractLsb'_append_extractLsb'_eq_extractLsb' (Nat.zero_add d).symm]
  exact BitVec.extractLsb'_eq_self

theorem extractLsb'_one {w : Nat} (x : BitVec w) (k : Nat) : x.extractLsb' k 1 = BitVec.ofBool (x.getLsbD k) := by
  ext i hi
  obtain rfl : i = 0 := by omega
  simp

/-- A digest word with its OP 1 and its reserved bits 0 is determined by V and HEX (R72). -/
theorem eq_digestWord {v : Word} (hop : opField v = 0b0001) (hres : v.extractLsb' 6 26 = 0) :
    v = digestWord (v.getLsbD 4) (v.getLsbD 5) := by
  calc v = v.extractLsb' 6 26 ++ v.extractLsb' 5 1 ++ v.extractLsb' 4 1 ++ opField v :=
        (append_fields 26 1 1 4 v).symm
    _ = digestWord (v.getLsbD 4) (v.getLsbD 5) := by
        rw [hres, extractLsb'_one, extractLsb'_one, hop]
        rfl

@[simp] theorem opField_cipherWord (op : BitVec 4) (ctx : Nat) : opField (cipherWord op ctx) = op :=
  BitVec.extractLsb'_append_eq_right

@[simp] theorem ctxField_cipherWord (op : BitVec 4) (ctx : Nat) : ctxField (cipherWord op ctx) = ctx % 256 := by
  have hctx : (cipherWord op ctx).extractLsb' 8 8 = BitVec.ofNat 8 ctx := by
    rw [cipherWord, BitVec.extractLsb'_append_eq_of_le (by decide), BitVec.extractLsb'_append_eq_of_le (by decide)]
    exact BitVec.extractLsb'_append_eq_right
  rw [ctxField, hctx, BitVec.toNat_ofNat]

/-- A cipher word with its reserved bits 0 is its OP and CTX fields put together (R73). -/
theorem eq_cipherWord {v : Word} (hlow : v.extractLsb' 4 4 = 0) (hhigh : v.extractLsb' 16 16 = 0) :
    v = cipherWord (opField v) (ctxField v) := by
  calc v = v.extractLsb' 16 16 ++ v.extractLsb' 8 8 ++ v.extractLsb' 4 4 ++ opField v :=
        (append_fields 16 8 4 4 v).symm
    _ = cipherWord (opField v) (ctxField v) := by
        rw [hhigh, hlow, cipherWord, ctxField, BitVec.ofNat_toNat, BitVec.setWidth_eq]
        rfl

/-! ### Decoding -/

/-- Settles O1: a digest word is decoded by its V and HEX bits, a cipher word by its OP field, and CTX holds the
context number of a well-formed command. -/
theorem decodeOfEncodeIsTheCommand : Obligations.DecodeOfEncodeIsTheCommand := by
  intro i hwf
  cases i with
  | sha0Digest | sha1Digest | sha0Hex | sha1Hex => exact decodeDigest_digestWord _ _
  | rc4New c | rc4Xform c | rc4Free c =>
    have hc : c % 256 = c := Nat.mod_eq_of_lt (of_decide_eq_true hwf)
    simp [decode, Instr.engine, encode, decodeCipher, Laws.ReservedZero.cipherWord_reserved, hc]

/-- The illegal digest words (R77). -/
theorem decodeDigest_illegal (v : Word) :
    (∀ i, decodeDigest v ≠ .ok i) ↔ opField v ≠ 0b0001 ∨ v.extractLsb' 6 26 ≠ 0 := by
  unfold decodeDigest
  split_ifs with hop hres
  · exact iff_of_true (fun _ => nofun) (.inl hop)
  · exact iff_of_true (fun _ => nofun) (.inr hres)
  · refine iff_of_false (fun hill => ?_) (not_or.mpr ⟨hop, hres⟩)
    cases hV : v.getLsbD 4 <;> cases hHex : v.getLsbD 5 <;> exact hill _ (by rw [hV, hHex])

/-- The illegal cipher words (R77). -/
theorem decodeCipher_illegal (v : Word) :
    (∀ i, decodeCipher v ≠ .ok i) ↔
      (opField v ≠ 0b0001 ∧ opField v ≠ 0b0010 ∧ opField v ≠ 0b0011) ∨
        v.extractLsb' 4 4 ≠ 0 ∨ v.extractLsb' 16 16 ≠ 0 := by
  unfold decodeCipher
  split_ifs with hop hlow hhigh hnew hxform
  · exact iff_of_true (fun _ => nofun) (.inl hop)
  · exact iff_of_true (fun _ => nofun) (.inr (.inl hlow))
  · exact iff_of_true (fun _ => nofun) (.inr (.inr hhigh))
  all_goals exact iff_of_false (fun hill => hill _ rfl) (not_or.mpr ⟨hop, not_or.mpr ⟨hlow, hhigh⟩⟩)

/-- A word that decodes on DE is the word of its command (R72, R75). -/
theorem decodeDigest_ok {v : Word} {i : Instr} (h : decodeDigest v = .ok i) :
    i.wellFormed = true ∧ encode i = v := by
  have hlegal := mt (decodeDigest_illegal v).mpr fun hill => hill i h
  obtain ⟨hop, hres⟩ := not_or.mp hlegal
  obtain ⟨w, hex, rfl⟩ : ∃ w hex, v = digestWord w hex := ⟨_, _, eq_digestWord (not_not.mp hop) (not_not.mp hres)⟩
  rw [decodeDigest_digestWord] at h
  cases w <;> cases hex <;> cases h <;> exact ⟨rfl, rfl⟩

/-- A word that decodes on CU is the word of its command (R73, R76). -/
theorem decodeCipher_ok {v : Word} {i : Instr} (h : decodeCipher v = .ok i) :
    i.wellFormed = true ∧ encode i = v := by
  have hfits : ctxFits (ctxField v) = true := decide_eq_true (v.extractLsb' 8 8).isLt
  simp only [decodeCipher] at h
  split_ifs at h with hop hlow hhigh hnew hxform
  all_goals
    cases h
    refine ⟨hfits, Eq.trans ?_ (eq_cipherWord (not_not.mp hlow) (not_not.mp hhigh)).symm⟩
  · rw [encode, hnew]
  · rw [encode, hxform]
  · have hfree : opField v = 0b0011 := not_not.mp fun hne => hop ⟨hnew, hxform, hne⟩
    rw [encode, hfree]

/-- Settles O2: each unit's decoder reads every bit of a legal word. -/
theorem encodeOfDecodeIsTheWord : Obligations.EncodeOfDecodeIsTheWord := by
  intro u v i h
  refine ⟨decode_engine h, ?_⟩
  cases u with
  | de => exact decodeDigest_ok h
  | cu => exact decodeCipher_ok h

/-- Settles O4: each word is the word of its command. -/
theorem opcodeTableWordsDecode : Obligations.OpcodeTableWordsDecode :=
  ⟨decodeOfEncodeIsTheCommand .sha0Digest rfl, decodeOfEncodeIsTheCommand .sha1Digest rfl,
    decodeOfEncodeIsTheCommand .sha0Hex rfl, decodeOfEncodeIsTheCommand .sha1Hex rfl,
    decodeOfEncodeIsTheCommand (.rc4New 0) rfl, decodeOfEncodeIsTheCommand (.rc4Xform 3) rfl,
    decodeOfEncodeIsTheCommand (.rc4Free 255) rfl⟩

/-! ### A word written to CMD -/

/-- Settles O5: the write of a word that decodes is the command (R70, R71). -/
theorem stepRunsTheCommandWritten : Obligations.StepRunsTheCommandWritten := by
  intro s u v i rest h
  cases u with
  | de => rw [step_cmdWrite_de, writeCmd, h]
  | cu => rw [step_cmdWrite_cu, writeCmd, h]

/-- A word that is no command is refused by name. -/
theorem decode_error {u : Engine} {v : Word} (h : ∀ i, decode u v ≠ .ok i) : ∃ e, decode u v = .error e := by
  cases hd : decode u v with
  | ok i => exact absurd hd (h i)
  | error e => exact ⟨e, rfl⟩

/-- An error of a command just accepted (R48, R50). -/
theorem Status.accept_raise (st : Status) (e : ErrCode) : st.accept.raise e = st.failed e := rfl

/-- A cipher command that fails a check ends at once with the check's error and changes nothing else (R48, R50). -/
theorem cipherCommand_failed {op : CipherOp} {c : Nat} {s : State} {e : ErrCode} (hidle : s.cu.status.busy = false)
    (hcheck : cipherCheck op c (nCtx s.params) s.cu = some e) :
    cipherCommand op c s = .next { s with cu := { s.cu with status := s.cu.status.failed e } } := by
  simp [cipherCommand, hidle, hcheck, Status.accept_raise]

/-- Settles O3: the decoders reject the words R77 names, and a context that does not exist fails the first check. -/
theorem illegalWordsEndWithIllegalCmd : Obligations.IllegalWordsEndWithIllegalCmd := by
  refine ⟨decodeDigest_illegal, decodeCipher_illegal, fun s v rest hill hidle => ?_, fun s v rest hill hidle => ?_,
    fun s c hidle hctx f hf => ?_⟩
  · obtain ⟨e, he⟩ := decode_error hill
    rw [step_cmdWrite_de, writeCmd, he]
    simp [illegalDigest, hidle, Status.accept_raise]
  · obtain ⟨e, he⟩ := decode_error hill
    rw [step_cmdWrite_cu, writeCmd, he]
    simp [illegalCipher, hidle, Status.accept_raise]
  · rw [exec_cipherForms hf]
    exact cipherCommand_failed hidle (by rw [cipherCheck.eq_def, if_pos hctx])

end Sys2Proof.Machine
end

section
/-! The padded message (R81 to R84) and the hex string (R91) as byte strings. -/

namespace Sys2Proof.Machine

/-! ### The padded message -/

@[simp] theorem lengthField_length (n : Nat) : (lengthField n).length = 8 := by simp [lengthField]

/-- Settles O48: the length modulo 64 decides how many zeros are padded. -/
theorem paddedMessageIsWholeBlocks : Obligations.PaddedMessageIsWholeBlocks := by
  intro m
  have hlength : (pad m).length = m.length + 1 + padZeros m.length + 8 := by simp [pad]; omega
  rw [hlength, padZeros, blockCount]
  omega

theorem lengthField_getD {n q : Nat} (h : q < 8) : (lengthField n).getD q 0 = lengthByte n q := by
  simp [lengthField, List.getD_eq_getElem?_getD, h]

/-- The padding follows the message: 0x80, the zeros, the length field (R81). -/
theorem pad_eq (m : List Byte) :
    pad m = m ++ (0x80 :: (List.replicate (padZeros m.length) 0x00 ++ lengthField m.length)) := by simp [pad]

/-- Settles O49: one case for the message and one for each of the three parts of the padding. -/
theorem paddingBytesAreThePadding : Obligations.PaddingBytesAreThePadding := by
  intro m p hp
  have hwhole : p < m.length + 1 + padZeros m.length + 8 := by
    have hlength := paddedMessageIsWholeBlocks m
    simp only [pad_eq, List.length_append, List.length_cons, List.length_replicate, lengthField_length] at hlength
    omega
  rw [pad_eq]
  by_cases hmessage : p < m.length
  · rw [if_pos hmessage, List.getD_append _ _ _ _ hmessage]
  rw [if_neg hmessage, List.getD_append_right _ _ _ _ (Nat.le_of_not_lt hmessage)]
  cases hpos : p - m.length with
  | zero => simp [padByte, show p = m.length by omega]
  | succ q =>
    rw [padByte, if_neg (by omega), List.getD_cons_succ]
    by_cases hzero : q < padZeros m.length
    · rw [if_pos (by omega), List.getD_append _ _ _ _ (by simpa using hzero), List.getD_replicate _ hzero]
    · rw [if_neg (by omega), List.getD_append_right _ _ _ _ (by simpa using hzero), List.length_replicate,
        lengthField_getD (by omega)]
      congr 1
      omega

/-- The first `k` bytes of the length field are the leading bytes of the bit length (R83). -/
theorem lengthBytes_leading {n : Nat} (hn : n ≤ maxMsgLen) {k : Nat} (hk : k ≤ 8) :
    ((List.range k).map (lengthByte n)).foldl (fun x b => 256 * x + b.toNat) 0 = 8 * n / 2 ^ (64 - 8 * k) := by
  induction k with
  | zero =>
    have hbits : 8 * n < 2 ^ 64 := by simp only [maxMsgLen] at hn; omega
    simpa using (Nat.div_eq_of_lt hbits).symm
  | succ k ih =>
    have hshift : 64 - 8 * k = (56 - 8 * k) + 8 := by omega
    have hnext : 64 - 8 * (k + 1) = 56 - 8 * k := by omega
    rw [List.range_succ, List.map_append, List.foldl_append, ih (Nat.le_of_succ_le hk), hshift, hnext, Nat.pow_add,
      ← Nat.div_div_eq_div_mul]
    simp only [List.map_cons, List.map_nil, List.foldl_cons, List.foldl_nil, lengthByte, BitVec.toNat_ofNat,
      Nat.shiftRight_eq_div_pow]
    exact Nat.div_add_mod _ (2 ^ 8)

/-- Settles O50: the eight bytes leave nothing to shift out. -/
theorem lengthFieldHoldsTheBitLength : Obligations.LengthFieldHoldsTheBitLength := by
  intro n hn
  simpa [lengthField] using lengthBytes_leading hn (k := 8) le_rfl

/-! ### The hex string -/

/-- No two nibbles share a hex digit (R91). -/
theorem hexDigit_injective : Function.Injective hexDigit := by
  intro a b
  revert a b
  decide

/-- The eight nibbles of a word tell the word. -/
theorem word_eq_of_nibbles {x y : Word}
    (h : ∀ j < 8, x.extractLsb' (28 - 4 * j) 4 = y.extractLsb' (28 - 4 * j) 4) : x = y := by
  refine BitVec.eq_of_getLsbD_eq fun i hi => ?_
  have hbit := congrArg (fun z : BitVec 4 => z.getLsbD (i % 4)) (h (7 - i / 4) (by omega))
  have hplace : 28 - 4 * (7 - i / 4) + i % 4 = i := by omega
  simpa [BitVec.getLsbD_extractLsb', hplace, Nat.mod_lt] using hbit

theorem Hash.eq_of_words {h h' : Hash} (hw : ∀ n < 5, h.word n = h'.word n) : h = h' := by
  cases h
  cases h'
  simp only [Hash.mk.injEq]
  exact ⟨hw 0 (by decide), hw 1 (by decide), hw 2 (by decide), hw 3 (by decide), hw 4 (by decide)⟩

/-- Settles O55: equal strings have equal digits, so equal nibbles, so equal words. -/
theorem hexStringTellsTheDigest : Obligations.HexStringTellsTheDigest := by
  intro h h' hstring
  have hbyte : ∀ k < hexBytes, hexByte h k = hexByte h' k := by
    simpa [hexString] using hstring
  refine Hash.eq_of_words fun n hn => word_eq_of_nibbles fun j hj => ?_
  have hdigit := hexDigit_injective (hbyte (8 * n + j) (by simp only [hexBytes]; omega))
  have hword : (8 * n + j) / 8 = n := by omega
  have hnibble : (8 * n + j) % 8 = j := by omega
  rwa [hword, hnibble] at hdigit

end Sys2Proof.Machine
end

section
/-! The digest commands from acceptance to their end: the checks in their order (R94), what a command leaves alone
(R97), that the hex string is for commands with HEX, and that nothing but the message is read (R96). -/

namespace Sys2Proof.Machine

/-! ### The checks -/

theorem pastTop_of_not_fits {base : Addr} {n : Nat} (h : ¬ fits base n) : pastTop base n = true := by
  simp only [fits] at h
  simp only [pastTop, decide_eq_true_eq]
  omega

theorem digestCheck_length (hex : Bool) {r : ParamRegs} (h : maxMsgLen < r.len.toNat) :
    digestCheck hex r = some .length := by
  rw [digestCheck, if_pos h]

theorem digestCheck_source (hex : Bool) {r : ParamRegs} (hlen : r.len.toNat ≤ maxMsgLen) (hpos : 0 < r.len.toNat)
    (hsrc : ¬ fits r.src r.len.toNat) : digestCheck hex r = some .range := by
  rw [digestCheck, if_neg (Nat.not_lt.mpr hlen), if_pos ⟨hpos, pastTop_of_not_fits hsrc⟩]

theorem digestCheck_dest {r : ParamRegs} (hlen : r.len.toNat ≤ maxMsgLen)
    (hsrc : 0 < r.len.toNat → fits r.src r.len.toNat) (hdst : ¬ fits r.dst hexBytes) :
    digestCheck true r = some .range := by
  have hsource : ¬ (0 < r.len.toNat ∧ pastTop r.src r.len.toNat = true) := fun ⟨hpos, hpast⟩ => by
    simp [pastTop_of_fits (hsrc hpos)] at hpast
  rw [digestCheck, if_neg (Nat.not_lt.mpr hlen), if_neg hsource, if_pos ⟨rfl, pastTop_of_not_fits hdst⟩]

/-- A digest command that fails a check ends at once with the check's error and changes nothing else (R48, R50). -/
theorem digestCommand_failed {v hex : Bool} {s : State} {e : ErrCode} (hidle : s.de.status.busy = false)
    (hcheck : digestCheck hex s.de.regs = some e) :
    digestCommand v hex s = .next { s with de := { s.de with status := s.de.status.failed e } } := by
  simp [digestCommand, hidle, hcheck, Status.accept_raise]

/-- Settles O9: each clause is the first check that fails. -/
theorem digestChecksReportInOrder : Obligations.DigestChecksReportInOrder := by
  intro s hidle f hf
  rw [exec_digestForms hf]
  refine ⟨fun hlen => ?_, fun hlen hpos hsrc => ?_, fun hlen hsrc hhex hdst => ?_⟩
  · exact digestCommand_failed hidle (digestCheck_length _ hlen)
  · exact digestCommand_failed hidle (digestCheck_source _ hlen hpos hsrc)
  · exact digestCommand_failed hidle (hhex ▸ digestCheck_dest hlen hsrc hdst)

/-! ### The frame -/

/-- Settles O11: a command that starts latches its operands and then keeps DE's frame; the others change only
DE_STATUS. -/
theorem digestCommandsFrame : Obligations.DigestCommandsFrame := by
  intro s t f hf h
  rw [exec_digestForms hf] at h
  obtain ⟨hbusy, h'⟩ | ⟨-, e, -, h'⟩ | ⟨-, -, h' | h' | ⟨-, h'⟩ | ⟨-, h'⟩⟩ := digestCommand_cases f.2.1 f.2.2 s <;>
    cases h'.symm.trans h
  · exact ⟨rfl, rfl, rfl, rfl, rfl, rfl, rfl, rfl, fun hidle => absurd (hbusy.symm.trans hidle) (by decide),
      fun _ _ => rfl, fun _ _ _ => rfl⟩
  · exact ⟨rfl, rfl, rfl, rfl, rfl, rfl, rfl, rfl, fun _ => rfl, fun _ _ => rfl, fun _ _ _ => rfl⟩
  · have hrun := digestRun_frame { s with de := digestStart f.2.1 f.2.2 s.de } rfl
    exact ⟨hrun.cu, hrun.params, hrun.devices, hrun.inputs, hrun.rdata, hrun.hostDraws, hrun.regs, hrun.pace,
      fun _ => hrun.ovr, fun hhex a => by rw [hrun.noHex hhex], fun _ => hrun.mem⟩
  · exact ⟨rfl, rfl, rfl, rfl, rfl, rfl, rfl, rfl, fun _ => rfl, fun _ _ => rfl, fun _ _ _ => rfl⟩

/-! ### The hex string is for commands with HEX -/

theorem HexPhaseOk.of_idle {s : State} (h : s.de.status.busy = false) : HexPhaseOk s :=
  fun hbusy => absurd (h.symm.trans hbusy) (by decide)

theorem HexPhaseOk.of_phase {s : State} (h : s.de.phase ≠ .hex) : HexPhaseOk s := fun _ hphase => absurd hphase h

/-- Only BUSY, the phase and HEX matter, and a command that does not start keeps them. -/
theorem HexPhaseOk.congr {s t : State} (h : HexPhaseOk s) (hbusy : t.de.status.busy = s.de.status.busy)
    (hphase : t.de.phase = s.de.phase) (hhex : t.de.hex = s.de.hex) : HexPhaseOk t := fun hb hp =>
  hhex.trans (h (hbusy.symm.trans hb) (hphase.symm.trans hp))

theorem HexPhaseOk.of_de {s t : State} (h : HexPhaseOk s) (hde : t.de = s.de) : HexPhaseOk t :=
  h.congr (by rw [hde]) (by rw [hde]) (by rw [hde])

theorem digestLoad_hexPhaseOk (s : State) : HexPhaseOk (digestLoad s) := by
  obtain ⟨b, bus, -, h⟩ | ⟨bus, -, h⟩ := digestLoad_cases s <;> rw [h]
  · exact .of_phase (by simp)
  · exact .of_idle rfl

/-- The fold goes on to the hex string only with HEX (R95). -/
theorem digestFold_hexPhaseOk (s : State) : HexPhaseOk (digestFold s) := by
  unfold digestFold
  split
  · exact .of_phase (by simp)
  · split
    · exact fun _ _ => ‹_›
    · exact .of_idle rfl

theorem digestHex_idle (s : State) : (digestHex s).de.status.busy = false := by
  obtain ⟨bus, h⟩ | ⟨bus, h⟩ := digestHex_cases s <;> rw [h] <;> rfl

theorem digestTurn_hexPhaseOk {s : State} (h : HexPhaseOk s) : HexPhaseOk (digestTurn s) := by
  unfold digestTurn
  split
  · split
    · exact digestLoad_hexPhaseOk s
    · split
      · exact h.congr rfl rfl rfl
      · exact digestFold_hexPhaseOk s
    · exact .of_idle (digestHex_idle s)
  · exact h

theorem digestCommand_hexPhaseOk {v hex : Bool} {s t : State} (hok : HexPhaseOk s)
    (h : digestCommand v hex s = .next t) : HexPhaseOk t := by
  obtain ⟨-, h'⟩ | ⟨-, e, -, h'⟩ | ⟨-, -, h' | h' | ⟨-, h'⟩ | ⟨-, h'⟩⟩ := digestCommand_cases v hex s <;>
    cases h'.symm.trans h
  · exact hok.congr rfl rfl rfl
  · exact .of_idle rfl
  · exact .of_idle (digestRun_idle _)
  · exact .of_phase DigestPhase.noConfusion

theorem Change.hexPhaseOk {s t : State} (h : Change s t) (hok : HexPhaseOk s) : HexPhaseOk t := by
  cases h with
  | answered | memWrite | cuRegs | cuStatus | cuIllegal => exact hok.of_de rfl
  | deRegs => exact hok.congr rfl rfl rfl
  | deStatus v => exact hok.congr (by simp [Status.hostWrite_eq]) rfl rfl
  | deIllegal => exact hok.congr (illegal_busy _) rfl rfl
  | digest h => exact digestCommand_hexPhaseOk hok h
  | cipher h => exact hok.of_de (cipherCommand_de h)
  | deTurn => exact digestTurn_hexPhaseOk hok
  | cuTurn => exact hok.of_de (cipherTurn_frame s).de
  | reset => exact .of_idle rfl

/-- Settles O59: every change a step can make keeps it. -/
theorem stepKeepsHexPhase : Obligations.StepKeepsHexPhase := by
  intro s t hok h
  obtain ⟨l, hchange⟩ := step_change h
  exact hchange.hexPhaseOk hok

end Sys2Proof.Machine
end

section
/-! A digest command that meets no bus error: its blocks are those of the padded message, so H ends as the digest of
the message (R90, R95, R99 to R102), and .HEX leaves its string in memory (R91). -/

namespace Sys2Proof.Machine

/-- The message of the digest command in progress, from its latched operands (R25). -/
def latchedMessage (s : State) : List Byte := s.mem.slice s.de.src 0 s.de.len.toNat

@[simp] theorem latchedMessage_length (s : State) : (latchedMessage s).length = s.de.len.toNat := slice_length _ _ _ _

/-- One block of a message hashed into the accumulators (R90). -/
def hashBlock (v : Bool) (m : List Byte) (h : Hash) (blk : Nat) : Hash := compress v h (blockOf (pad m) blk)

/-- The digest of a message is all its blocks hashed from the initial value (R90). -/
theorem sha_eq (v : Bool) (m : List Byte) :
    sha v m = (List.range' 0 (blockCount m.length)).foldl (hashBlock v m) Hash.iv := by
  rw [← List.range_eq_range']
  rfl

/-! ### One block -/

theorem blockOf_length {m : List Byte} {blk : Nat} (h : blk < blockCount m.length) :
    (blockOf (pad m) blk).length = 64 := by
  rw [blockOf, List.length_take, List.length_drop, paddedMessageIsWholeBlocks]
  omega

theorem blockOf_getD (padded : List Byte) (blk : Nat) {q : Nat} (h : q < 64) :
    (blockOf padded blk).getD q 0 = padded.getD (64 * blk + q) 0 := by
  simp [blockOf, List.getD_eq_getElem?_getD, List.getElem?_drop, h]

/-- Lists of one length with the same bytes are one list. -/
theorem bytes_ext {b b' : List Byte} (hlen : b.length = b'.length) (h : ∀ q < b.length, b.getD q 0 = b'.getD q 0) :
    b = b' := by
  refine List.ext_getElem hlen fun q hq hq' => ?_
  rw [← List.getD_eq_getElem b 0 hq, ← List.getD_eq_getElem b' 0 hq', h q hq]

/-- Without a bus error DE fetches the block of the padded message (R95, R83). -/
theorem fetchBlock_quiet (m : Memory) {bus : List Bool} (src : Addr) (len : Nat) {blk : Nat}
    (hblk : blk < blockCount len) (hquiet : quiet bus (len - 64 * blk)) :
    fetchBlock m bus src len (64 * blk) 64 =
      (some (blockOf (pad (m.slice src 0 len)) blk), bus.drop (min 64 (len - 64 * blk))) := by
  have hlength := slice_length m src 0 len
  obtain ⟨b, hfetch, hsize, hbytes⟩ := fetchBlock_getD m src len (64 * blk) 64 hquiet
  have hblock : b = blockOf (pad (m.slice src 0 len)) blk := by
    refine bytes_ext (by rw [hsize, blockOf_length (by rwa [hlength])]) fun q hq => ?_
    rw [hsize] at hq
    rw [hbytes q hq, blockOf_getD _ _ hq, paddingBytesAreThePadding _ _ (by rw [hlength]; omega), hlength]
    split
    · rw [slice_getD _ _ _ _ ‹_›, Nat.zero_add]
    · rfl
  rw [hfetch, hblock]

/-- DE with the block it stands before loaded, and the draws of its message bytes used (R95). -/
def blockLoaded (s : State) : State :=
  digestLoaded (blockOf (pad (latchedMessage s)) s.de.blk)
    (setDeBus s (s.de.bus.drop (min 64 (s.de.len.toNat - s.de.p))))

/-- Without a bus error the load is of the block DE stands before. -/
theorem digestLoad_quiet {s : State} (hp : s.de.p = 64 * s.de.blk) (hblk : s.de.blk < blockCount s.de.len.toNat)
    (hquiet : quiet s.de.bus (s.de.len.toNat - s.de.p)) : digestLoad s = blockLoaded s := by
  have hfetch := fetchBlock_quiet s.mem s.de.src s.de.len.toNat hblk (hp ▸ hquiet)
  rw [← hp] at hfetch
  simp only [digestLoad, hfetch]
  rfl

/-! ### All blocks -/

theorem digestFold_h (s : State) : (digestFold s).de.h = s.de.h.add s.de.work := by
  unfold digestFold
  split_ifs <;> rfl

theorem digestFold_bus (s : State) : (digestFold s).de.bus = s.de.bus := by
  unfold digestFold
  split_ifs <;> rfl

/-- The last fold completes a command without HEX (R95). -/
theorem digestFold_status {s : State} (hlast : ¬ s.de.blk + 1 < blockCount s.de.len.toNat) :
    (digestFold s).de.status = if s.de.hex then s.de.status else s.de.status.complete := by
  rw [digestFold, if_neg hlast]
  split_ifs <;> rfl

/-- What the block loop leaves where it meets no bus error (R95): each block from `blk` on hashed, and one draw used
for each message byte. -/
structure BlocksHashed (n : Nat) (s t : State) : Prop where
  status : t.de.status = if s.de.hex then s.de.status else s.de.status.complete
  hash : t.de.h = (List.range' s.de.blk n).foldl (hashBlock s.de.v (latchedMessage s)) s.de.h
  mem : t.mem = s.mem
  bus : t.de.bus = s.de.bus.drop (s.de.len.toNat - s.de.p)

/-- One round of the block loop where the load meets no bus error. -/
theorem digestBlocks_succ {s : State} (hbusy : s.de.status.busy = true) (hload : digestLoad s = blockLoaded s)
    (n : Nat) : digestBlocks (n + 1) s = digestBlocks n (digestFold (digestRounds (blockLoaded s))) := by
  rw [digestBlocks, hload]
  exact if_pos hbusy

/-- DE with the block it stands before hashed, where another block follows (R89, R95). -/
def blockHashed (s : State) : State := digestFolded (digestRounds (blockLoaded s))

section
variable (s : State)

theorem blockHashed_blk : (blockHashed s).de.blk = s.de.blk + 1 := rfl
theorem blockHashed_p : (blockHashed s).de.p = s.de.p + 64 := rfl
theorem blockHashed_len : (blockHashed s).de.len = s.de.len := rfl
theorem blockHashed_h : (blockHashed s).de.h = hashBlock s.de.v (latchedMessage s) s.de.h s.de.blk := rfl
theorem blockHashed_bus : (blockHashed s).de.bus = s.de.bus.drop (min 64 (s.de.len.toNat - s.de.p)) := rfl

theorem digestFold_blockLoaded (hmore : s.de.blk + 1 < blockCount s.de.len.toNat) :
    digestFold (digestRounds (blockLoaded s)) = blockHashed s := if_pos hmore

end

/-- Without a bus error the block loop hashes every block left (R95). -/
theorem digestBlocks_quiet (n : Nat) {s : State} (hbusy : s.de.status.busy = true) (hp : s.de.p = 64 * s.de.blk)
    (hn : s.de.blk + (n + 1) = blockCount s.de.len.toNat) (hquiet : quiet s.de.bus (s.de.len.toNat - s.de.p)) :
    BlocksHashed (n + 1) s (digestBlocks (n + 1) s) := by
  induction n generalizing s with
  | zero =>
    have hlast : ¬ s.de.blk + 1 < blockCount s.de.len.toNat := by omega
    have hdraws : min 64 (s.de.len.toNat - s.de.p) = s.de.len.toNat - s.de.p := by
      simp only [blockCount] at hn
      omega
    rw [digestBlocks_succ hbusy (digestLoad_quiet hp (by omega) hquiet)]
    exact ⟨digestFold_status (s := digestRounds (blockLoaded s)) hlast, digestFold_h _, digestFold_mem _,
      (digestFold_bus _).trans (congrArg s.de.bus.drop hdraws)⟩
  | succ n ih =>
    have hdraws : s.de.len.toNat - s.de.p = min 64 (s.de.len.toNat - s.de.p) + (s.de.len.toNat - (s.de.p + 64)) := by
      omega
    have hrest : quiet (blockHashed s).de.bus ((blockHashed s).de.len.toNat - (blockHashed s).de.p) := by
      rw [hdraws, quiet_add] at hquiet
      exact hquiet.2
    obtain ⟨hstatus, hhash, hmem, hbus⟩ := ih (s := blockHashed s) hbusy
      (by rw [blockHashed_p, blockHashed_blk]; omega) (by rw [blockHashed_blk, blockHashed_len]; omega) hrest
    rw [digestBlocks_succ hbusy (digestLoad_quiet hp (by omega) hquiet), digestFold_blockLoaded s (by omega)]
    refine ⟨hstatus, ?_, hmem, ?_⟩
    · rw [List.range'_succ, List.foldl_cons, hhash, blockHashed_h, blockHashed_blk]
      rfl
    · rw [hbus, blockHashed_bus, blockHashed_len, blockHashed_p, List.drop_drop, ← hdraws]

/-! ### The whole command -/

theorem BlocksHashed.draws {n : Nat} {s t : State} (h : BlocksHashed n s t) (hp : s.de.p = 0) :
    t.de.bus = s.de.bus.drop s.de.len.toNat := by rw [h.bus, hp, Nat.sub_zero]

/-- All blocks of a message hashed from the initial value are its digest (R90). -/
theorem BlocksHashed.digest {s t : State} (h : BlocksHashed (blockCount s.de.len.toNat) s t) (hblk : s.de.blk = 0)
    (hiv : s.de.h = Hash.iv) : t.de.h = sha s.de.v (latchedMessage s) := by
  rw [h.hash, hblk, hiv, sha_eq, latchedMessage_length]

section
variable {s : State} (hbusy : s.de.status.busy = true) (hblk : s.de.blk = 0) (hp : s.de.p = 0)
include hbusy hblk hp

/-- The block loop of a command that has just started. -/
theorem digestBlocks_all (hquiet : quiet s.de.bus s.de.len.toNat) :
    BlocksHashed (blockCount s.de.len.toNat) s (digestBlocks (blockCount s.de.len.toNat) s) :=
  digestBlocks_quiet ((s.de.len.toNat + 8) / 64) hbusy (by rw [hp, hblk]) (by rw [hblk, blockCount]; omega)
    (by rwa [hp, Nat.sub_zero])

/-- Without HEX the run ends with the last block (R95). -/
theorem digestRun_digest (hhex : s.de.hex = false) (hquiet : quiet s.de.bus s.de.len.toNat) :
    BlocksHashed (blockCount s.de.len.toNat) s (digestRun s) := by
  have hall := digestBlocks_all hbusy hblk hp hquiet
  have hended : (digestBlocks (blockCount s.de.len.toNat) s).de.status.busy = false := by simp [hall.status, hhex]
  rw [digestRun, if_neg (by simp [hended])]
  exact hall

/-- With HEX the run writes the hex string after the last block (R95). -/
theorem digestRun_hex (hhex : s.de.hex = true) (hquiet : quiet s.de.bus (s.de.len.toNat + hexBytes)) :
    ∃ t, BlocksHashed (blockCount s.de.len.toNat) s t ∧ digestRun s =
      digestComplete { setDeBus t (t.de.bus.drop hexBytes) with mem := s.mem.writeRun s.de.dst 0 (hexString t.de.h) } := by
  obtain ⟨hmessage, hstring⟩ := quiet_add.mp hquiet
  have hall := digestBlocks_all hbusy hblk hp hmessage
  have hbusy' : (digestBlocks (blockCount s.de.len.toNat) s).de.status.busy = true := by simp [hall.status, hhex, hbusy]
  have hdst := (digestBlocks_frame (blockCount s.de.len.toNat) s).dst
  refine ⟨_, hall, ?_⟩
  rw [digestRun, if_pos hbusy', digestHex, memStore_quiet _ _ _ (by rwa [hexString_length, hall.draws hp]),
    hexString_length, hdst, hall.mem]

end

/-- A started command latches the message its parameter registers name (R25). -/
theorem latchedMessage_start (v hex : Bool) (s : State) :
    latchedMessage { s with de := digestStart v hex s.de } = message s := rfl

/-- Settles O7: the run is the block loop, from the initial value. -/
theorem digestCommandsLeaveTheDigest : Obligations.DigestCommandsLeaveTheDigest := by
  intro s hacc hpace hquiet f hf
  have hexec : exec f.1 s = digestCommand f.2 false s := by
    simp only [List.mem_cons, List.not_mem_nil, or_false] at hf
    obtain rfl | rfl := hf <;> rfl
  have hrun := digestRun_digest (s := { s with de := digestStart f.2 false s.de }) rfl rfl rfl rfl hquiet
  exact ⟨_, by rw [hexec, hacc.command, hpace], hrun.status, hrun.digest rfl rfl, hrun.mem, hrun.draws rfl⟩

/-- A buffer written from its byte `k` on reads back the bytes written. -/
theorem writeRun_read (m : Memory) {base : Addr} {k i : Nat} {bs : List Byte} (hfits : fits base (k + bs.length))
    (hi : i < bs.length) : (m.writeRun base k bs).read (byteAddr base (k + i)) = bs.getD i 0 := by
  induction bs generalizing m k i with
  | nil => exact absurd hi (Nat.not_lt_zero i)
  | cons b bs ih =>
    have hsize : k + (b :: bs).length = k + 1 + bs.length := by simp only [List.length_cons]; omega
    rw [hsize] at hfits
    cases i with
    | zero =>
      have hbefore : ∀ j, k + 1 ≤ j → j < k + 1 + bs.length → byteAddr base k ≠ byteAddr base j := fun j hkj hj => by
        rw [byteAddr_fits hfits (by omega), byteAddr_fits hfits hj]
        omega
      exact (writeRun_outside _ _ _ _ _ hbefore).trans (read_write_same _ _ _)
    | succ i =>
      have hread := ih (m.write (byteAddr base k) b) hfits (Nat.lt_of_succ_lt_succ hi)
      rwa [Nat.add_right_comm] at hread

theorem hexString_getD (h : Hash) {k : Nat} (hk : k < hexBytes) : (hexString h).getD k 0 = hexByte h k := by
  simp [hexString, List.getD_eq_getElem?_getD, hk]

/-- The hex string written reads back from its 40 bytes (R91, R97). -/
theorem hexString_read (m : Memory) {dst : Addr} (h : Hash) (hfits : fits dst hexBytes) {k : Nat} (hk : k < hexBytes) :
    (m.writeRun dst 0 (hexString h)).read (dst.toNat + k) = hexByte h k := by
  have hread := writeRun_read m (k := 0) (i := k) (bs := hexString h) (by simpa using hfits) (by simpa using hk)
  rwa [Nat.zero_add, byteAddr_fits hfits hk, hexString_getD h hk] at hread

/-- Settles O8: after the block loop the string of the digest is written, whatever of the message it covers. -/
theorem hexCommandsWriteTheHexString : Obligations.HexCommandsWriteTheHexString := by
  intro s hacc hpace hquiet f hf
  have hexec : exec f.1 s = digestCommand f.2 true s := by
    simp only [List.mem_cons, List.not_mem_nil, or_false] at hf
    obtain rfl | rfl := hf <;> rfl
  obtain ⟨t, hblocks, hrun⟩ := digestRun_hex (s := { s with de := digestStart f.2 true s.de }) rfl rfl rfl rfl hquiet
  have hdigest : t.de.h = sha f.2 (message s) := hblocks.digest rfl rfl
  refine ⟨digestRun { s with de := digestStart f.2 true s.de }, by rw [hexec, hacc.command, hpace], ?_⟩
  rw [hrun]
  refine ⟨?_, hdigest, fun k hk => ?_, hexString_outside _ _ _, ?_⟩
  · rw [digestComplete_status]
    exact congrArg Status.complete hblocks.status
  · rw [← hdigest]
    exact hexString_read s.mem t.de.h (hacc.dest rfl) hk
  · exact (congrArg (List.drop hexBytes) (hblocks.draws rfl)).trans List.drop_drop

end Sys2Proof.Machine
end

section
/-! A digest command reads no byte of memory but its message (R96): the same DE on two memories that agree on the
message ends as the same DE. -/

namespace Sys2Proof.Machine

/-- The same DE on two memories that agree on the bytes of its latched message. -/
structure SameMessage (s t : State) : Prop where
  de : t.de = s.de
  bytes : ∀ k < s.de.len.toNat, t.mem.read (byteAddr s.de.src k) = s.mem.read (byteAddr s.de.src k)

/-- A block holds message bytes and padding bytes only (R95). -/
theorem fetchBlock_congr {m m' : Memory} {src : Addr} {len : Nat}
    (h : ∀ k < len, m'.read (byteAddr src k) = m.read (byteAddr src k)) (bus : List Bool) (p n : Nat) :
    fetchBlock m' bus src len p n = fetchBlock m bus src len p n := by
  induction n generalizing bus p with
  | zero => rfl
  | succ n ih =>
    by_cases hp : p < len
    · simp only [fetchBlock, if_pos hp, ih, h p hp]
    · simp only [fetchBlock, if_neg hp, ih]

/-- Whether a run of writes ends, and with which draws, does not depend on what memory holds. -/
theorem memStore_congr (m m' : Memory) (bus : List Bool) (base : Addr) (k : Nat) (bs : List Byte) :
    (memStore m' bus base k bs).1.isSome = (memStore m bus base k bs).1.isSome ∧
      (memStore m' bus base k bs).2 = (memStore m bus base k bs).2 := by
  induction bs generalizing m m' bus k with
  | nil => exact ⟨rfl, rfl⟩
  | cons b bs ih =>
    unfold memStore
    split
    · exact ⟨rfl, rfl⟩
    · exact ih _ _ _ _

theorem digestBusError_de {s t : State} (h : t.de = s.de) : (digestBusError t).de = (digestBusError s).de := by
  simp only [digestBusError, h]

theorem setDeBus_de {s t : State} (h : t.de = s.de) (bus : List Bool) :
    (setDeBus t bus).de = (setDeBus s bus).de := by
  simp only [setDeBus, h]

theorem digestFold_de {s t : State} (h : t.de = s.de) : (digestFold t).de = (digestFold s).de := by
  unfold digestFold
  rw [h]
  split_ifs <;> simp only [digestFolded, digestToHex, digestComplete, h]

theorem digestRounds_de {s t : State} (h : t.de = s.de) : (digestRounds t).de = (digestRounds s).de := by
  simp only [digestRounds, h]

/-- A load reads the same block on both memories, and leaves both as they are while the command goes on. -/
theorem SameMessage.load {s t : State} (h : SameMessage s t) : (digestLoad t).de = (digestLoad s).de ∧
    ((digestLoad s).de.status.busy = true → SameMessage (digestLoad s) (digestLoad t)) := by
  have hfetch := fetchBlock_congr h.bytes s.de.bus s.de.p 64
  unfold digestLoad
  rw [h.de, hfetch]
  rcases fetchBlock s.mem s.de.bus s.de.src s.de.len.toNat s.de.p 64 with ⟨_ | b, bus⟩
  · exact ⟨digestBusError_de (setDeBus_de h.de bus), fun hbusy => by simp at hbusy⟩
  · have hde : (digestLoaded b (setDeBus t bus)).de = (digestLoaded b (setDeBus s bus)).de := by
      simp only [digestLoaded, setDeBus, h.de]
    exact ⟨hde, fun _ => ⟨hde, h.bytes⟩⟩

theorem SameMessage.fold {s t : State} (h : SameMessage s t) :
    SameMessage (digestFold (digestRounds s)) (digestFold (digestRounds t)) where
  de := digestFold_de (digestRounds_de h.de)
  bytes := by
    rw [digestFold_mem, digestFold_mem, (digestFold_frame _).len, (digestFold_frame _).src]
    exact h.bytes

theorem SameMessage.blocks {s t : State} (h : SameMessage s t) (n : Nat) :
    (digestBlocks n t).de = (digestBlocks n s).de := by
  induction n generalizing s t with
  | zero => exact h.de
  | succ n ih =>
    obtain ⟨hde, hloaded⟩ := h.load
    simp only [digestBlocks, hde]
    split
    · exact ih (hloaded ‹_›).fold
    · exact hde

theorem digestHex_de {s t : State} (h : t.de = s.de) : (digestHex t).de = (digestHex s).de := by
  obtain ⟨hends, hdraws⟩ := memStore_congr s.mem t.mem s.de.bus s.de.dst 0 (hexString s.de.h)
  unfold digestHex
  rw [h]
  rcases hs : memStore s.mem s.de.bus s.de.dst 0 (hexString s.de.h) with ⟨_ | m, bus⟩ <;>
    rcases ht : memStore t.mem s.de.bus s.de.dst 0 (hexString s.de.h) with ⟨_ | m', bus'⟩ <;>
    rw [hs, ht] at hends hdraws <;> obtain rfl : bus' = bus := hdraws
  case none.none => exact digestBusError_de (setDeBus_de h bus')
  case none.some => cases hends
  case some.none => cases hends
  case some.some => simp only [digestComplete, setDeBus, h]

theorem SameMessage.run {s t : State} (h : SameMessage s t) : (digestRun t).de = (digestRun s).de := by
  have hblocks := h.blocks (blockCount s.de.len.toNat)
  simp only [digestRun, h.de, hblocks]
  split
  · exact digestHex_de hblocks
  · exact hblocks

/-- The next state's DE, where there is one, depends on memory only through the message. -/
theorem digestNext_withMem {s : State} {m : Memory} (h : ∀ k < s.de.regs.len.toNat,
    m.read (byteAddr s.de.regs.src k) = s.mem.read (byteAddr s.de.regs.src k)) (v hex : Bool) :
    (digestNext v hex { s with mem := m }).de = (digestNext v hex s).de := by
  unfold digestNext
  dsimp only
  split
  · rfl
  · split
    · rfl
    · split
      · exact SameMessage.run (s := { s with de := digestStart v hex s.de })
          (t := { s with de := digestStart v hex s.de, mem := m }) ⟨rfl, h⟩
      · rfl

/-- Settles O14: the command latches the message that the two memories agree on. -/
theorem digestReadsOnlyItsMessage : Obligations.DigestReadsOnlyItsMessage := by
  intro s m hsame f hf t t' ht ht'
  rw [exec_digestForms hf] at ht ht'
  rw [digestCommand_next ht, digestCommand_next ht', digestNext_withMem hsame]

end Sys2Proof.Machine
end

section
/-! RC4 as functions on one context: which key bytes the schedule takes (R104, R106), and the transform byte by byte
(R107 to R111). -/

namespace Sys2Proof.Machine

/-! ### The key schedule -/

/-- The schedule takes the key only as `Key[k mod KL]` for k below 256 (R104). -/
theorem ksa_congr {key key' : List Byte} {len len' : Nat}
    (h : ∀ k < 256, keyByte key len k = keyByte key' len' k) : ksa key len = ksa key' len' := by
  refine List.foldl_ext _ _ _ fun q k hk => ?_
  simp only [ksaStep, h k (List.mem_range.mp hk)]

/-- The periodic extension of a key has the key's own byte at each k below 256 (R106). -/
theorem keyByte_extension (key : List Byte) (len : Nat) {k : Nat} (hk : k < 256) :
    keyByte ((List.range 256).map (keyByte key len)) 256 k = keyByte key len k := by
  rw [keyByte, Nat.mod_eq_of_lt hk, List.getD_eq_getElem?_getD]
  simp [hk]

/-- A key byte used for a k below 256 is among the first 256 (R106). -/
theorem keyByte_take (key : List Byte) (len : Nat) {k : Nat} (hk : k < 256) :
    keyByte (key.take 256) len k = keyByte key len k := by
  have hplace : k % len < 256 := lt_of_le_of_lt (Nat.mod_le k len) hk
  simp only [keyByte, List.getD_eq_getElem?_getD, List.getElem?_take_of_lt hplace]

/-- Settles O52: for k below 256 both keys have the bytes of the key itself. -/
theorem keyScheduleIsPeriodic : Obligations.KeyScheduleIsPeriodic := fun key _ =>
  ⟨ksa_congr fun _ hk => (keyByte_extension key key.length hk).symm,
    ksa_congr fun _ hk => (keyByte_take key key.length hk).symm⟩

/-! ### The transform -/

/-- Settles O53: by induction on the first piece, each byte of which moves the context on by one keystream step. -/
theorem transformSplitsAnywhere : Obligations.TransformSplitsAnywhere := by
  intro x m1 m2
  induction m1 generalizing x with
  | nil => rfl
  | cons b bs ih => exact congrArg (List.cons _) (ih (ksNext x))

/-- Settles O54: each byte meets the same keystream byte twice. -/
theorem transformInvertsItself : Obligations.TransformInvertsItself := by
  intro x m
  induction m generalizing x with
  | nil => rfl
  | cons b bs ih =>
    simp only [transform, ih, BitVec.xor_assoc, BitVec.xor_self, BitVec.xor_zero]

@[simp] theorem transform_length (x : Context) (m : List Byte) : (transform x m).length = m.length := by
  induction m generalizing x with
  | nil => rfl
  | cons b bs ih => simp [transform, ih]

/-- Byte `k` of a transform is byte `k` of the input XOR keystream byte `k` (R108). -/
theorem transform_getD (x : Context) {m : List Byte} {k : Nat} (hk : k < m.length) :
    (transform x m).getD k 0 = m.getD k 0 ^^^ (keystream x m.length).getD k 0 := by
  induction m generalizing x k with
  | nil => exact absurd hk (Nat.not_lt_zero k)
  | cons b bs ih =>
    cases k with
    | zero => rfl
    | succ k => exact ih (ksNext x) (Nat.lt_of_succ_lt_succ hk)

end Sys2Proof.Machine
end

section
/-! The cipher commands from acceptance to their end: the checks in their order (R113), what a command leaves alone
(R118), the empty transform (R112), and what RC4.NEW and RC4.FREE leave (R114, R116). -/

namespace Sys2Proof.Machine

/-! ### The checks -/

theorem newCheck_active {r : ParamRegs} {x : Context} (h : x.valid = true) : newCheck r x = some .ctxActive := by
  rw [newCheck, if_pos h]

theorem newCheck_empty {r : ParamRegs} {x : Context} (hfresh : x.valid = false) (h : r.len.toNat = 0) :
    newCheck r x = some .keyEmpty := by
  simp [newCheck, hfresh, h]

theorem newCheck_range {r : ParamRegs} {x : Context} (hfresh : x.valid = false) (hpos : 0 < r.len.toNat)
    (hsrc : ¬ fits r.src (keyUsed r.len)) : newCheck r x = some .range := by
  simp [newCheck, hfresh, hpos.ne', pastTop_of_not_fits hsrc]

theorem xformCheck_invalid {r : ParamRegs} {x : Context} (h : x.valid = false) :
    xformCheck r x = some .ctxInvalid := by
  simp [xformCheck, h]

/-- A length of 0 passes every check of RC4.XFORM on a valid context (R112, R128). -/
theorem xformCheck_empty {r : ParamRegs} {x : Context} (hlive : x.valid = true) (h : r.len.toNat = 0) :
    xformCheck r x = none := by
  simp [xformCheck, hlive, h]

theorem xformCheck_range {r : ParamRegs} {x : Context} (hlive : x.valid = true) (hpos : 0 < r.len.toNat)
    (h : ¬ fits r.src r.len.toNat ∨ ¬ fits r.dst r.len.toNat) : xformCheck r x = some .range := by
  have hpast : pastTop r.src r.len.toNat = true ∨ pastTop r.dst r.len.toNat = true :=
    h.imp pastTop_of_not_fits pastTop_of_not_fits
  simp [xformCheck, hlive, hpos.ne', hpast]

/-- Buffers neither equal nor disjoint overlap partially (R113, R117). -/
theorem partialOverlap_of_not_placed {src dst : Addr} {n : Nat} (h : ¬ placed src dst n) :
    partialOverlap src dst n = true := by
  obtain ⟨hne, habove, hbelow⟩ : src ≠ dst ∧ ¬ src.toNat + n ≤ dst.toNat ∧ ¬ dst.toNat + n ≤ src.toNat := by
    simpa only [placed, not_or] using h
  simp only [partialOverlap, Bool.and_eq_true, decide_eq_true_eq]
  exact ⟨⟨hne, Nat.not_le.mp hbelow⟩, Nat.not_le.mp habove⟩

theorem xformCheck_overlap {r : ParamRegs} {x : Context} (hlive : x.valid = true) (hpos : 0 < r.len.toNat)
    (hsrc : fits r.src r.len.toNat) (hdst : fits r.dst r.len.toNat) (h : ¬ placed r.src r.dst r.len.toNat) :
    xformCheck r x = some .overlap := by
  simp [xformCheck, hlive, hpos.ne', pastTop_of_fits hsrc, pastTop_of_fits hdst, partialOverlap_of_not_placed h]

/-- On an existing context the checks of RC4.NEW are left (R113). -/
theorem cipherCheck_new {c n : Nat} (h : c < n) (u : CipherUnit) :
    cipherCheck .new c n u = newCheck u.regs (u.context c) := by
  rw [cipherCheck.eq_def, if_neg (Nat.not_le.mpr h)]

/-- On an existing context the checks of RC4.XFORM are left (R113). -/
theorem cipherCheck_xform {c n : Nat} (h : c < n) (u : CipherUnit) :
    cipherCheck .xform c n u = xformCheck u.regs (u.context c) := by
  rw [cipherCheck.eq_def, if_neg (Nat.not_le.mpr h)]

/-- Settles O20: each clause is the first check that fails. -/
theorem cipherChecksReportInOrder : Obligations.CipherChecksReportInOrder := by
  intro s c hidle hexist
  have hnew {e : ErrCode} (h : newCheck s.cu.regs (s.cu.context c) = some e) := cipherCommand_failed hidle
    ((cipherCheck_new hexist s.cu).trans h)
  have hxform {e : ErrCode} (h : xformCheck s.cu.regs (s.cu.context c) = some e) := cipherCommand_failed hidle
    ((cipherCheck_xform hexist s.cu).trans h)
  refine ⟨fun hlive => hnew (newCheck_active hlive), fun hfresh hlen => hnew (newCheck_empty hfresh ?_),
    fun hfresh hpos hsrc => hnew (newCheck_range hfresh hpos hsrc),
    fun hfresh => hxform (xformCheck_invalid hfresh),
    fun hlive hpos hpast => hxform (xformCheck_range hlive hpos hpast),
    fun hlive hpos hsrc hdst hplace => hxform (xformCheck_overlap hlive hpos hsrc hdst hplace)⟩
  rw [hlen]
  rfl

/-! ### The empty transform -/

/-- Settles O18: it passes the checks, and its length, 0, is latched with the other operands. -/
theorem emptyXformChangesNoContext : Obligations.EmptyXformChangesNoContext := by
  intro s c hidle hexist hlive hlen
  have hzero : s.cu.regs.len.toNat = 0 := by rw [hlen]; rfl
  have hcheck := (cipherCheck_xform hexist s.cu).trans (xformCheck_empty hlive hzero)
  have hcommand := cipherCommand_empty hidle hcheck (by simp [emptyXform, hzero])
  rw [cipherAtOnce, cipherLatch, hlen] at hcommand
  exact hcommand

/-! ### The frame -/

/-- Settles O22: a command that starts latches its operands and then keeps CU's frame for the context it names; the
others change only CU_STATUS and latched operands. -/
theorem cipherCommandsFrame : Obligations.CipherCommandsFrame := by
  intro s t c f hf h
  rw [exec_cipherForms hf] at h
  obtain ⟨hbusy, h'⟩ | ⟨-, e, -, h'⟩ | ⟨-, hcheck, ⟨-, h'⟩ | h' | h' | ⟨-, h'⟩ | ⟨-, h'⟩⟩ :=
    cipherCommand_cases f.2 c s <;> cases h'.symm.trans h
  · exact ⟨rfl, rfl, rfl, rfl, rfl, rfl, rfl, rfl, fun hidle => absurd (hbusy.symm.trans hidle) (by decide),
      fun _ _ _ => rfl, fun _ _ => rfl, fun _ _ _ => rfl⟩
  · exact ⟨rfl, rfl, rfl, rfl, rfl, rfl, rfl, rfl, fun _ => rfl, fun _ _ _ => rfl, fun _ _ => rfl, fun _ _ _ => rfl⟩
  · exact ⟨rfl, rfl, rfl, rfl, rfl, rfl, rfl, rfl, fun _ => rfl, fun _ _ _ => rfl, fun _ _ => rfl, fun _ _ _ => rfl⟩
  · have hrun := cipherRun_frame { s with cu := cipherStart f.2 c s.cu } rfl
    have hexist := cipherCheck_exists hcheck
    refine ⟨hrun.de, hrun.params, hrun.devices, hrun.inputs, hrun.rdata, hrun.hostDraws, hrun.regs, hrun.pace,
      fun _ => hrun.ovr, fun c' hc' hne => hrun.others c' ?_, fun hop a => by rw [hrun.noXform hop], fun _ => hrun.mem⟩
    rw [cipherStart_ctx, latched_ctx hexist]
    exact slot_ne (lt_of_lt_of_le hexist (nCtx_le _)) hc' hne
  · exact ⟨rfl, rfl, rfl, rfl, rfl, rfl, rfl, rfl, fun _ => rfl, fun _ _ _ => rfl, fun _ _ => rfl, fun _ _ _ => rfl⟩

/-! ### RC4.FREE and RC4.NEW -/

/-- A cipher command that passes its checks and has something to do runs to its end at the pace whole (R67). -/
theorem CipherAccepted.command_whole {op : CipherOp} {c : Nat} {s : State} (h : CipherAccepted op c s)
    (hcheck : cipherCheck op c (nCtx s.params) s.cu = none) (hsome : emptyXform op s.cu.regs = false)
    (hpace : s.cu.pace = .whole) :
    cipherCommand op c s = .next (cipherRun { s with cu := cipherStart op c s.cu }) := by
  rw [h.command hcheck hsome, hpace]

/-- Settles O19: RC4.FREE reads and writes no memory, so that nothing but CTX_RANGE could stop it. -/
theorem freeInvalidatesTheContext : Obligations.FreeInvalidatesTheContext := by
  intro s c hidle hexist hpace
  have hacc : CipherAccepted .free c s := ⟨hidle, hexist, rfl, rfl⟩
  have hnamed := freeFinish_context { s with cu := cipherStart .free c s.cu }
  rw [cipherStart_ctx, latched_ctx hexist] at hnamed
  exact ⟨_, hacc.command_whole hacc.check_free rfl hpace, rfl, congrArg Context.valid hnamed, rfl⟩

/-- The end of a key schedule leaves the named context keyed (R103, R104, R105). -/
theorem newFinish_keyed (kb : List Byte) (s : State) :
    (newFinish (newScheduleAll (newKeyed kb s))).cu.context s.cu.ctx.toNat = keyedContext kb s.cu.len.toNat := by
  calc (newFinish (newScheduleAll (newKeyed kb s))).cu.context s.cu.ctx.toNat
      = { (newScheduleAll (newKeyed kb s)).cu.context s.cu.ctx.toNat with i := 0, j := 0, valid := true } :=
        newFinish_context (newScheduleAll (newKeyed kb s))
    _ = keyedContext kb s.cu.len.toNat := by
        rw [show s.cu.ctx = (newKeyed kb s).cu.ctx from rfl, newScheduleAll_context]
        rfl

/-- Without a bus error RC4.NEW runs from its key bytes to its end (R114). -/
theorem newRun_quiet {s : State} (hbusy : s.cu.status.busy = true) (hquiet : quiet s.cu.bus (keyUsed s.cu.len)) :
    newRun s = newFinish (newScheduleAll (newKeyed (s.mem.slice s.cu.src 0 (keyUsed s.cu.len))
      (setCuBus s (s.cu.bus.drop (keyUsed s.cu.len))))) := by
  simp [newRun, newReadKey, memFetch_quiet s.mem s.cu.src 0 hquiet, hbusy]

/-- Settles O16: the run reads the key bytes and keys the context it latched. -/
theorem newKeysTheContext : Obligations.NewKeysTheContext := by
  intro s c hacc hpace hquiet
  have hrun := newRun_quiet (s := { s with cu := cipherStart .new c s.cu }) rfl hquiet
  have hkeyed := newFinish_keyed (s.mem.slice s.cu.regs.src 0 (keyUsed s.cu.regs.len))
    (setCuBus { s with cu := cipherStart .new c s.cu } (s.cu.bus.drop (keyUsed s.cu.regs.len)))
  rw [setCuBus_ctx, cipherStart_ctx, latched_ctx hacc.exist] at hkeyed
  exact ⟨_, (hacc.command_whole hacc.check rfl hpace).trans (congrArg Host.Outcome.next hrun), rfl, hkeyed, rfl⟩

/-! ### RC4.NEW reads no byte of memory but the key bytes it uses -/

/-- A run of reads depends on no byte of memory but those it reads. -/
theorem memFetch_congr {m m' : Memory} {base : Addr} {k n : Nat}
    (h : ∀ i, k ≤ i → i < k + n → m'.read (byteAddr base i) = m.read (byteAddr base i)) (bus : List Bool) :
    memFetch m' bus base k n = memFetch m bus base k n := by
  induction n generalizing k bus with
  | zero => rfl
  | succ n ih =>
    have hrest := ih (k := k + 1) (fun i hlow hhigh => h i (by omega) (by omega)) bus.tail
    simp only [memFetch, hrest, h k le_rfl (by omega)]

theorem cipherBusError_withMem {s : State} (hop : s.cu.op = .new) (m : Memory) :
    cipherBusError { s with mem := m } = { cipherBusError s with mem := m } := by
  simp only [cipherBusError, hop]

section
variable {s : State} {m : Memory} (hop : s.cu.op = .new)
  (h : ∀ k < keyUsed s.cu.len, m.read (byteAddr s.cu.src k) = s.mem.read (byteAddr s.cu.src k))
include hop h

theorem newReadKey_withMem : newReadKey { s with mem := m } = { newReadKey s with mem := m } := by
  have hfetch := memFetch_congr (k := 0) (fun i _ hi => h i (by simpa using hi)) s.cu.bus
  unfold newReadKey
  dsimp only
  rw [hfetch]
  rcases memFetch s.mem s.cu.bus s.cu.src 0 (keyUsed s.cu.len) with ⟨_ | kb, bus⟩
  · exact cipherBusError_withMem (s := setCuBus s bus) hop m
  · rfl

theorem newRun_withMem : newRun { s with mem := m } = { newRun s with mem := m } := by
  simp only [newRun, newReadKey_withMem hop h]
  split <;> rfl

end

/-- The next state of RC4.NEW, where there is one, depends on memory only through the key bytes used, but for memory
itself. -/
theorem cipherNext_new_withMem {s : State} {m : Memory} (h : ∀ k < keyUsed s.cu.regs.len,
    m.read (byteAddr s.cu.regs.src k) = s.mem.read (byteAddr s.cu.regs.src k)) (c : Nat) :
    cipherNext .new c { s with mem := m } = { cipherNext .new c s with mem := m } := by
  unfold cipherNext
  dsimp only
  split
  · rfl
  · split
    · rfl
    · split
      · rfl
      · split
        · exact newRun_withMem (s := { s with cu := cipherStart .new c s.cu }) rfl h
        · rfl

/-- Settles O25: the command latches the key that the two memories agree on. -/
theorem newReadsOnlyTheKeyBytesUsed : Obligations.NewReadsOnlyTheKeyBytesUsed := by
  intro s c m hsame t t' ht ht'
  rw [cipherCommand_next ht, cipherCommand_next ht', cipherNext_new_withMem hsame]

end Sys2Proof.Machine
end

section
/-! What RC4.XFORM writes (R108, R115): its bytes are read one by one while the output is written, and come out as the
transform of the input as it stood, since no write meets a byte still to be read (R117). -/

namespace Sys2Proof.Machine

/-! ### Equal and disjoint buffers -/

/-- No byte of the output is a byte of the input that comes after it. -/
def ReadAhead (src dst : Addr) (n : Nat) : Prop := ∀ i j, i < j → j < n → byteAddr src j ≠ byteAddr dst i

/-- In place and disjoint alike, the output never overtakes the input (R117). -/
theorem XformAccepted.readAhead {c : Nat} {s : State} (h : XformAccepted c s) :
    ReadAhead s.cu.regs.src s.cu.regs.dst s.cu.regs.len.toNat := by
  intro i j hij hj
  rw [byteAddr_fits h.source hj, byteAddr_fits h.dest (hij.trans hj)]
  obtain heq | hbelow | habove := h.place
  · rw [heq]
    omega
  · omega
  · omega

/-- A write outside a buffer leaves its bytes alone. -/
theorem slice_write (m : Memory) (a : Nat) (b : Byte) {base : Addr} {k n : Nat}
    (h : ∀ j, k ≤ j → j < k + n → byteAddr base j ≠ a) : (m.write a b).slice base k n = m.slice base k n := by
  induction n generalizing k with
  | zero => rfl
  | succ n ih =>
    have hrest := ih (k := k + 1) fun j hlow hhigh => h j (by omega) (by omega)
    rw [Memory.slice, Memory.slice, hrest, read_write_other m b (h k le_rfl (by omega))]

/-! ### The byte loop -/

/-- Byte `n` transformed, its two draws used. -/
def byteTransformed (s : State) : State := xformWrite (setCuBus s s.cu.bus.tail.tail)

section
variable (s : State)

theorem byteTransformed_ctx : (byteTransformed s).cu.ctx = s.cu.ctx := rfl
theorem byteTransformed_src : (byteTransformed s).cu.src = s.cu.src := rfl
theorem byteTransformed_dst : (byteTransformed s).cu.dst = s.cu.dst := rfl
theorem byteTransformed_n : (byteTransformed s).cu.n = s.cu.n + 1 := rfl

theorem byteTransformed_context :
    (byteTransformed s).cu.context s.cu.ctx.toNat = ksNext (s.cu.context s.cu.ctx.toNat) :=
  xformWrite_context (setCuBus s s.cu.bus.tail.tail)

theorem byteTransformed_mem : (byteTransformed s).mem = s.mem.write (byteAddr s.cu.dst s.cu.n)
    (s.mem.read (byteAddr s.cu.src s.cu.n) ^^^ ksByte (ksNext (s.cu.context s.cu.ctx.toNat))) := rfl

end

/-- Without a bus error the byte loop transforms a byte and goes on (R115). -/
theorem xformBytes_succ {n : Nat} {s : State} (hbusy : s.cu.status.busy = true)
    (hread : busError s.cu.bus = false) (hwrite : busError s.cu.bus.tail = false) :
    xformBytes (n + 1) s = xformBytes n (byteTransformed s) := by
  have hbyte : xformByte s = byteTransformed s := by simp [xformByte, byteTransformed, hread, hwrite]
  rw [xformBytes, hbyte]
  exact if_pos hbusy

/-- What the byte loop leaves of `n` bytes where it meets no bus error (R107, R108): the command still in progress, its
context `n` keystream steps on, and the output the transform of the input as it stood. -/
structure BytesTransformed (n : Nat) (s t : State) : Prop where
  status : t.cu.status = s.cu.status
  context : t.cu.context s.cu.ctx.toNat = ksAdvance (s.cu.context s.cu.ctx.toNat) n
  mem : t.mem = s.mem.writeRun s.cu.dst s.cu.n
    (transform (s.cu.context s.cu.ctx.toNat) (s.mem.slice s.cu.src s.cu.n n))

/-- Without a bus error the byte loop transforms every byte (R115). -/
theorem xformBytes_quiet (n : Nat) {s : State} (hbusy : s.cu.status.busy = true)
    (hahead : ReadAhead s.cu.src s.cu.dst (s.cu.n + n)) (hquiet : quiet s.cu.bus (2 * n)) :
    BytesTransformed n s (xformBytes n s) := by
  induction n generalizing s with
  | zero => exact ⟨rfl, rfl, rfl⟩
  | succ n ih =>
    obtain ⟨hread, hrest⟩ := quiet_succ.mp hquiet
    obtain ⟨hwrite, hquiet'⟩ := quiet_succ.mp hrest
    have hnext : s.cu.n + 1 + n = s.cu.n + (n + 1) := by omega
    have hinput : (byteTransformed s).mem.slice s.cu.src (s.cu.n + 1) n = s.mem.slice s.cu.src (s.cu.n + 1) n :=
      slice_write _ _ _ fun j hlow hhigh => hahead s.cu.n j hlow (by omega)
    obtain ⟨hstatus, hcontext, hmem⟩ := ih (s := byteTransformed s) hbusy (hnext ▸ hahead) hquiet'
    rw [byteTransformed_ctx, byteTransformed_context] at hcontext
    rw [byteTransformed_dst, byteTransformed_src, byteTransformed_n, byteTransformed_ctx, byteTransformed_context,
      hinput, byteTransformed_mem] at hmem
    rw [xformBytes_succ hbusy hread hwrite]
    exact ⟨hstatus, hcontext, hmem⟩

/-! ### The whole command -/

/-- Byte `k` of a written transform reads as byte `k` of the input XOR keystream byte `k` (R108). -/
theorem transform_read (m : Memory) (x : Context) {src dst : Addr} {n k : Nat} (hsrc : fits src n) (hdst : fits dst n)
    (hk : k < n) : (m.writeRun dst 0 (transform x (m.slice src 0 n))).read (dst.toNat + k) =
      m.read (src.toNat + k) ^^^ (keystream x n).getD k 0 := by
  have hlength := slice_length m src 0 n
  have hread := writeRun_read m (base := dst) (k := 0) (i := k) (bs := transform x (m.slice src 0 n))
    (by simpa [hlength] using hdst) (by simpa [hlength] using hk)
  rwa [Nat.zero_add, byteAddr_fits hdst hk, transform_getD x (by rwa [hlength]), hlength, slice_getD _ _ _ _ hk,
    Nat.zero_add, byteAddr_fits hsrc hk] at hread

/-- Without a bus error RC4.XFORM runs through its bytes to its completion (R115). -/
theorem xformRun_quiet {s : State} (hbusy : s.cu.status.busy = true) (hn : s.cu.n = 0)
    (hahead : ReadAhead s.cu.src s.cu.dst s.cu.len.toNat) (hquiet : quiet s.cu.bus (2 * s.cu.len.toNat)) :
    ∃ t, BytesTransformed s.cu.len.toNat s t ∧ xformRun s = cipherComplete t := by
  have hbytes := xformBytes_quiet s.cu.len.toNat hbusy (by rwa [hn, Nat.zero_add]) hquiet
  exact ⟨_, hbytes, if_pos (by rw [hbytes.status, hbusy])⟩

/-- Settles O17: the run transforms the bytes of the buffers and the context it latched. -/
theorem xformXorsTheKeystream : Obligations.XformXorsTheKeystream := by
  intro s c hacc hpace hquiet
  obtain ⟨t, ⟨hstatus, hcontext, hmem⟩, hrun⟩ :=
    xformRun_quiet (s := { s with cu := cipherStart .xform c s.cu }) rfl rfl hacc.readAhead hquiet
  rw [cipherStart_ctx, latched_ctx hacc.exist] at hcontext hmem
  have hframe : CipherFrame { s with cu := cipherStart .xform c s.cu } (cipherComplete t) := by
    rw [← hrun]
    exact cipherRun_frame _ rfl
  have hexec : exec (.rc4Xform c) s = .next (cipherComplete t) :=
    (hacc.command_whole hacc.check (emptyXform_of_pos hacc.some) hpace).trans (congrArg Host.Outcome.next hrun)
  refine ⟨_, hexec, congrArg Status.complete hstatus, fun k hk => ?_, hcontext, hframe.mem⟩
  rw [cipherComplete_mem, hmem]
  exact transform_read s.mem (s.cu.context c) hacc.source hacc.dest hk

end Sys2Proof.Machine
end

section
/-! A unit with BUSY = 0 does nothing until it is written to (R141): its turn changes nothing, and its state survives
the other unit's turns and commands and the HOST's accesses elsewhere. -/

namespace Sys2Proof.Machine

/-! ### Turns -/

theorem digestTurn_idle {s : State} (h : s.de.status.busy = false) : digestTurn s = s := if_neg (by simp [h])

theorem cipherTurn_idle {s : State} (h : s.cu.status.busy = false) : cipherTurn s = s := if_neg (by simp [h])

theorem idleTurn_idle {s : State} (h : s.idle) : idleTurn s = s :=
  (idleTurn_deIdle h.1).trans (cipherTurn_idle h.2)

/-- Whichever unit was idle keeps all its state (R141). -/
structure IdleUnitsKept (s t : State) : Prop where
  de : s.de.status.busy = false → t.de = s.de
  cu : s.cu.status.busy = false → t.cu = s.cu

theorem digestTurn_idleUnitsKept (s : State) : IdleUnitsKept s (digestTurn s) where
  de hidle := by rw [digestTurn_idle hidle]
  cu _ := (digestTurn_leaves s).1

theorem cipherTurn_idleUnitsKept (s : State) : IdleUnitsKept s (cipherTurn s) where
  de _ := (cipherTurn_frame s).de
  cu hidle := by rw [cipherTurn_idle hidle]

theorem idleTurn_idleUnitsKept (s : State) : IdleUnitsKept s (idleTurn s) := by
  cases h : s.de.status.busy
  · rw [idleTurn_deIdle h]
    exact cipherTurn_idleUnitsKept s
  · rw [idleTurn_deBusy h]
    exact digestTurn_idleUnitsKept s

/-! ### Events other than reset and register writes -/

theorem hostMemRead_idleUnitsKept {s t : State} {a : Addr} (h : hostMemRead s a = .next t) : IdleUnitsKept s t := by
  unfold hostMemRead at h
  split_ifs at h
  cases h
  exact ⟨fun _ => rfl, fun _ => rfl⟩

theorem hostMemWrite_idleUnitsKept {s t : State} {a : Addr} {b : Byte} (h : hostMemWrite s a b = .next t) :
    IdleUnitsKept s t := by
  unfold hostMemWrite at h
  split_ifs at h
  cases h
  exact ⟨fun _ => rfl, fun _ => rfl⟩

theorem perform_idleUnitsKept {e : Event} {s t : State} (hreset : e ≠ .reset)
    (hwrite : ∀ o bits v, e ≠ .regWrite o bits v) (h : perform e s = .next t) : IdleUnitsKept s t := by
  cases e with
  | regRead o bits =>
    simp only [perform] at h
    split_ifs at h
    cases h
    exact ⟨fun _ => rfl, fun _ => rfl⟩
  | regWrite o bits v => exact absurd rfl (hwrite o bits v)
  | memRead a => exact hostMemRead_idleUnitsKept h
  | memWrite a b => exact hostMemWrite_idleUnitsKept h
  | deTurn => cases h; exact digestTurn_idleUnitsKept s
  | cuTurn => cases h; exact cipherTurn_idleUnitsKept s
  | reset => exact absurd rfl hreset

/-! ### Register writes -/

/-- The unit in whose half of the offsets a register stands, the constants with CU's (R31). -/
def Reg.half : Reg → Engine
  | .deCmd | .deStatus | .deSrcLo | .deSrcHi | .deLenLo | .deLenHi | .deDstLo | .deDstHi | .deH _ => .de
  | .cuCmd | .cuStatus | .cuSrcLo | .cuSrcHi | .cuLenLo | .cuLenHi | .cuDstLo | .cuDstHi | .cuValid => .cu
  | .engId | .engParam => .cu

theorem regAt_half {o : BitVec 9} {r : Reg} (h : regAt o = some r) : r.half = .de ↔ o < 0x100 := by
  have hrows : ∀ p ∈ regMap, p.2.half = .de ↔ p.1 < 0x100 := by decide
  exact hrows _ (regAt_mem h)

/-- A word written to CU_CMD leaves DE alone (R2). -/
theorem writeCmd_cu_de {v : Word} {s t : State} (h : writeCmd .cu v s = .next t) : t.de = s.de := by
  obtain ⟨op, c, hcmd⟩ | hill := writeCmd_cu v
  · exact cipherCommand_de ((hcmd s).symm.trans h)
  · cases (hill s).symm.trans h
    rfl

/-- A word written to DE_CMD leaves CU alone (R2). -/
theorem writeCmd_de_cu {v : Word} {s t : State} (h : writeCmd .de v s = .next t) : t.cu = s.cu := by
  obtain ⟨w, hex, hcmd⟩ | hill := writeCmd_de v
  · exact (digestCommand_leaves ((hcmd s).symm.trans h)).1
  · cases (hill s).symm.trans h
    rfl

/-- A write to a register leaves the unit of the other half alone, busy or not. -/
theorem writeReg_otherUnit {v : Word} {r : Reg} {s t : State} (h : writeReg s v r = .next t) :
    (r.half ≠ .de → t.de = s.de) ∧ (r.half = .de → t.cu = s.cu) := by
  cases r with
  | deCmd => exact ⟨fun hr => absurd rfl hr, fun _ => writeCmd_de_cu h⟩
  | deStatus | deSrcLo | deSrcHi | deLenLo | deLenHi | deDstLo | deDstHi | deH _ =>
    cases h
    exact ⟨fun hr => absurd rfl hr, fun _ => rfl⟩
  | cuCmd => exact ⟨fun _ => writeCmd_cu_de h, fun hr => by cases hr⟩
  | cuStatus | cuSrcLo | cuSrcHi | cuLenLo | cuLenHi | cuDstLo | cuDstHi | cuValid | engId | engParam =>
    cases h
    exact ⟨fun _ => rfl, fun hr => by cases hr⟩

theorem perform_regWrite_otherUnit {o : BitVec 9} {bits : Nat} {v : Word} {s t : State}
    (h : perform (.regWrite o bits v) s = .next t) : (0x100 ≤ o → t.de = s.de) ∧ (o < 0x100 → t.cu = s.cu) := by
  simp only [perform, writeOffset] at h
  split_ifs at h
  cases hr : regAt o with
  | none =>
    rw [hr] at h
    cases h
    exact ⟨fun _ => rfl, fun _ => rfl⟩
  | some r =>
    rw [hr] at h
    obtain ⟨hde, hcu⟩ := writeReg_otherUnit h
    have hhalf := regAt_half hr
    exact ⟨fun ho => hde fun hr' => BitVec.not_lt.mpr ho (hhalf.mp hr'), fun ho => hcu (hhalf.mpr ho)⟩

/-! ### Steps -/

/-- A step is the idle turn, or performs the first event that waits (R9, R152). -/
theorem step_cases {s t : State} (h : step s = .next t) :
    t = idleTurn s ∨ ∃ e es, s.inputs.head? = some e ∧ perform e { s with inputs := es } = .next t := by
  cases hin : s.inputs with
  | nil =>
    rw [step_noInput hin] at h
    cases h
    exact .inl rfl
  | cons e es =>
    rw [step, hin] at h
    exact .inr ⟨e, es, rfl, h⟩

/-- A step keeps an idle unit's state, but for reset and for writes in the unit's own half of the offsets. -/
theorem step_idleUnitsKept {s t : State} (hreset : s.inputs.head? ≠ some .reset) (h : step s = .next t) :
    IdleUnitsKept s t ∨ ∃ o bits v, s.inputs.head? = some (.regWrite o bits v) ∧
      (0x100 ≤ o → t.de = s.de) ∧ (o < 0x100 → t.cu = s.cu) := by
  obtain rfl | ⟨e, es, hhead, hperf⟩ := step_cases h
  · exact .inl (idleTurn_idleUnitsKept s)
  · rw [hhead] at hreset ⊢
    by_cases hwrite : ∃ o bits v, e = .regWrite o bits v
    · obtain ⟨o, bits, v, rfl⟩ := hwrite
      obtain ⟨hde, hcu⟩ := perform_regWrite_otherUnit hperf
      exact .inr ⟨o, bits, v, rfl, hde, hcu⟩
    · obtain ⟨hde, hcu⟩ := perform_idleUnitsKept (fun he => hreset (congrArg some he))
        (fun o bits v he => hwrite ⟨o, bits, v, he⟩) hperf
      exact .inl ⟨hde, hcu⟩

/-- Settles O46: the turn of an idle unit is the identity, and what a step does that could reach an idle unit is
reset or a write in the unit's own half of the offsets. -/
theorem idleUnitsDoNothing : Obligations.IdleUnitsDoNothing := by
  refine ⟨fun s rest hidle => ?_, fun s rest hidle => ?_, fun s hidle hin => ?_, fun s t hidle hreset hport h => ?_,
    fun s t hidle hreset hport h => ?_⟩
  · exact (step_deTurn s rest).trans (congrArg Host.Outcome.next (digestTurn_idle hidle))
  · exact (step_cuTurn s rest).trans (congrArg Host.Outcome.next (cipherTurn_idle hidle))
  · rw [step_noInput hin, idleTurn_idle hidle]
  · obtain hkept | ⟨o, bits, v, hhead, hde, -⟩ := step_idleUnitsKept hreset h
    · exact hkept.de hidle
    · exact hde (hport o bits v hhead)
  · obtain hkept | ⟨o, bits, v, hhead, -, hcu⟩ := step_idleUnitsKept hreset h
    · exact hkept.cu hidle
    · exact hcu (hport o bits v hhead)

end Sys2Proof.Machine
end

section
/-! Reset (R142, R144, R145): what it leaves of the block, and the memory it spares. -/

namespace Sys2Proof.Machine

/-- With reset waiting a step is the reset of the state without it (R142). -/
@[simp] theorem step_reset (s : State) (rest : List Event) :
    step { s with inputs := .reset :: rest } = .next (resetBlock { s with inputs := rest }) := rfl

/-- Every parameter register of either unit reads 0 after reset, whatever it held (R31, R145). -/
theorem readReg_resetBlock_param {r : Reg} (hr : r.isParam = true) (s : State) : readReg (resetBlock s) r = 0 := by
  cases r with
  | deSrcLo | deSrcHi | deLenLo | deLenHi | deDstLo | deDstHi => rfl
  | cuSrcLo | cuSrcHi | cuLenLo | cuLenHi | cuDstLo | cuDstHi => rfl
  | _ => cases hr

/-- Reset gives every context its reset value (R26, R142). -/
@[simp] theorem resetBlock_context (s : State) (c : Nat) : (resetBlock s).cu.context c = Context.reset :=
  Vector.getElem_replicate _

/-- The output of RC4.XFORM is at stake exactly while the command is in progress. -/
theorem transforming_iff (u : CipherUnit) : u.transforming = true ↔ u.status.busy = true ∧ u.op = .xform := by
  simp [CipherUnit.transforming]

/-- Reset spares every byte of memory outside the hex string of an abandoned digest command and outside the output of
an abandoned RC4.XFORM (R144). -/
theorem resetMem_read {s : State} {a : Nat}
    (hde : s.de.status.busy = true → s.de.hex = true → outside s.de.dst hexBytes a)
    (hcu : s.cu.status.busy = true → s.cu.op = .xform → outside s.cu.dst s.cu.len.toNat a) :
    (resetMem s).read a = s.mem.read a := by
  have hde' (h : s.de.status.busy ∧ s.de.hex) :
      (s.mem.scramble .de s.de.draws s.de.dst hexBytes).read a = s.mem.read a :=
    scramble_outside _ _ _ _ _ a (hde h.1 h.2)
  have hcu' (h : s.cu.transforming) (m : Memory) :
      (m.scramble .cu s.cu.draws s.cu.dst s.cu.len.toNat).read a = m.read a :=
    have ⟨hbusy, hop⟩ := (transforming_iff s.cu).mp h
    scramble_outside _ _ _ _ _ a (hcu hbusy hop)
  unfold resetMem
  dsimp only
  split_ifs with hxform hhex hhex
  · exact (hcu' hxform _).trans (hde' hhex)
  · exact hcu' hxform _
  · exact hde' hhex
  · rfl

/-- Settles O39: the block's fields are those of reset, and the memory is that of `resetMem`. -/
theorem resetRestoresTheBlock : Obligations.ResetRestoresTheBlock := by
  refine fun s rest => ⟨_, step_reset s rest, rfl, rfl, rfl, fun o ho => ?_, rfl, fun c _ => ?_, rfl,
    fun a hde hcu => resetMem_read hde hcu⟩
  · obtain ⟨-, r, hr, hparam⟩ := paramOffset_reg ho
    exact (readOffset_mapped hr _).trans (readReg_resetBlock_param hparam _)
  · rw [resetBlock_context, Context.reset]

end Sys2Proof.Machine
end
